-- ==== Sys2Proof/Word.lean ====
section
/-!
DEFINITION. The word types of the spec (00_scope R7).
-/

namespace Sys2Proof

/-- `u8` (R7). -/
abbrev Byte := BitVec 8

/-- `u16` (R7). -/
abbrev Word16 := BitVec 16

/-- `u32` (R7). -/
abbrev Word32 := BitVec 32

/-- `u40` (R7), the width of a wait in microseconds. -/
abbrev Word40 := BitVec 40

end Sys2Proof
end

