-- ==== Sys2Proof/Config.lean ====
section
/-!
DEFINITION. What an implementation fixes (00_scope R6): the fixed constants, the result codes, the
open parameters with the spec's defaults, and the free values.
-/

namespace Sys2Proof

/-- Result codes and the values of `OUTCOME` (30_encoding R78). -/
inductive Code where
  | success
  | wrongChecksum
  | statusError
  | wrongId
  | incompleteData
  | oversizedData
  | noResponse
  | wrongParameter
  | constructionFailure
  | refused
  /-- `None`, code `F`: the value of `OUTCOME` while an exchange runs and after reset. -/
  | none
deriving DecidableEq, Repr

/-- The seven outcomes an exchange can end in (60_exceptions R220). -/
def Code.isExchange : Code → Bool
  | .success => true
  | .wrongChecksum => true
  | .statusError => true
  | .wrongId => true
  | .incompleteData => true
  | .oversizedData => true
  | .noResponse => true
  | .wrongParameter => false
  | .constructionFailure => false
  | .refused => false
  | .none => false

namespace Config

/-- `SIG`, the three non-reserved header bytes (R6). -/
def sig : List Byte := [0xFF, 0xFF, 0xFD]

/-- `HDR = SIG ++ [RSV]` (R6; 90_conflicts C2). -/
def hdr : List Byte := [0xFF, 0xFF, 0xFD, 0x00]

/-- `STUFF_BYTE = SIG[2]` (R6). -/
def stuffByte : Byte := 0xFD

/-- `POLY` (R6, R90). -/
def poly : Word16 := 0x8005

/-- `CRC_INIT` (R6, R90). -/
def crcInit : Word16 := 0x0000

/-- `ITER_DEFAULT` (R6, R172). -/
def iterDefault : Byte := 5

/-- `SEND_FAIL_OUTCOME` (R6, R150; 92_eei_decisions D6). -/
def sendFailOutcome : Code := .noResponse

/-- The eight wire instruction codes, `INSTR_*` (30_encoding R68), open parameters. -/
structure WireCodes where
  ping : Byte
  read : Byte
  write : Byte
  regWrite : Byte
  action : Byte
  factoryReset : Byte
  reboot : Byte
  status : Byte
deriving DecidableEq, Repr

/-- The codes as a list, in the order of R68. -/
def WireCodes.toList (c : WireCodes) : List Byte :=
  [c.ping, c.read, c.write, c.regWrite, c.action, c.factoryReset, c.reboot, c.status]

/-- Byte width of a quantity of the Register Address Map (45_device_ops R196, R197). -/
inductive Width where
  | one
  | two
  | four
deriving DecidableEq, Repr

/-- One row of the Register Address Map (R6, R196): address, width, signedness, and the scale as the
fraction `num / den`. A bit field has no use for signedness and scale. -/
structure Row where
  addr : Word16
  width : Width
  signed : Bool
  num : Nat
  den : Nat
deriving DecidableEq, Repr

/-- The quantities of the Register Address Map (R196). -/
inductive Quantity where
  | torqueEnable
  | presentPosition
  | goalPosition
  | presentVelocity
  | goalVelocity
  | presentCurrent
  | goalCurrent
  | temperature
  | delayTime
  | driveMode
  | operatingMode
  | baudRate
deriving DecidableEq, Repr

/-- `REGMAP` (R6, R196). -/
structure RegMap where
  torqueEnable : Row
  presentPosition : Row
  goalPosition : Row
  presentVelocity : Row
  goalVelocity : Row
  presentCurrent : Row
  goalCurrent : Row
  temperature : Row
  delayTime : Row
  driveMode : Row
  operatingMode : Row
  baudRate : Row
deriving DecidableEq, Repr

/-- `REGMAP[q]`. -/
def RegMap.row (m : RegMap) : Quantity → Row
  | .torqueEnable => m.torqueEnable
  | .presentPosition => m.presentPosition
  | .goalPosition => m.goalPosition
  | .presentVelocity => m.presentVelocity
  | .goalVelocity => m.goalVelocity
  | .presentCurrent => m.presentCurrent
  | .goalCurrent => m.goalCurrent
  | .temperature => m.temperature
  | .delayTime => m.delayTime
  | .driveMode => m.driveMode
  | .operatingMode => m.operatingMode
  | .baudRate => m.baudRate

/-- A row is signed and has this scale. -/
abbrev Row.scaled (e : Row) (num den : Nat) : Prop := e.signed = true ∧ e.num = num ∧ e.den = den

/-- A row is unsigned and has this scale in whole units. -/
abbrev Row.unsigned (e : Row) (num : Nat) : Prop := e.signed = false ∧ e.num = num ∧ e.den = 1

/-- The rows have the signedness and scale that R196 and the accessors' rules give the quantities:
position four bytes, signed, 0.088 (R199); velocity signed, 0.229 (R200); current signed, 1 (R201), both
two or four bytes; temperature and the two codes unsigned, unscaled (R197); delay time 2 (R204). -/
abbrev RegMap.wf (m : RegMap) : Prop :=
  (m.presentPosition.scaled 88 1000 ∧ m.presentPosition.width = .four) ∧
  (m.goalPosition.scaled 88 1000 ∧ m.goalPosition.width = .four) ∧
  (m.presentVelocity.scaled 229 1000 ∧ m.presentVelocity.width ≠ .one) ∧
  (m.goalVelocity.scaled 229 1000 ∧ m.goalVelocity.width ≠ .one) ∧
  (m.presentCurrent.scaled 1 1 ∧ m.presentCurrent.width ≠ .one) ∧
  (m.goalCurrent.scaled 1 1 ∧ m.goalCurrent.width ≠ .one) ∧
  m.temperature.unsigned 1 ∧ m.delayTime.unsigned 2 ∧ m.operatingMode.unsigned 1 ∧
  m.baudRate.unsigned 1

/-- What `SET_delay_time` does when `(us + 1) / 2` does not fit a byte
(93_implementation_defined U9): refuse by default, or one of the two named alternatives. -/
inductive DelayOverflow where
  | refuse
  | truncate
  | saturate
deriving DecidableEq, Repr

/-- The open parameters of the block and of the Device Operation Layer (00_scope R6). -/
structure Params where
  /-- `CAP_MIN` (D8). -/
  capMin : Nat
  /-- `TXCAP` (D9). -/
  txCap : Nat
  /-- `MALFORMED_OUTCOME` (D5, R153). -/
  malformed : Code
  /-- `INSTR_*` (D19, R68). -/
  codes : WireCodes
  /-- `ID_BROADCAST` (D18, R70): used by nothing in the block. -/
  broadcast : Byte
  /-- `REGMAP` (R196). -/
  regmap : RegMap
  /-- `MASK_1` (R198). -/
  mask1 : Byte
  /-- `MASK_2` (R198). -/
  mask2 : Byte
  /-- `MASK_3` (R198). -/
  mask3 : Byte
  /-- `BAUD_CODE` (R207): code and bits per second. -/
  baudCode : List (Byte × Word32)
  /-- `BAUD_CANDIDATES` (R210). -/
  baudCandidates : List Word32
  /-- The parameter of U9. -/
  delayOverflow : DelayOverflow
deriving DecidableEq, Repr

/-- The constraints R6 and 92_eei_decisions put on the open parameters, and those of the map's rows. The
eight instruction codes need not differ: R6 and 92_eei_decisions say u8 each (log 31). -/
abbrev Params.wf (p : Params) : Prop :=
  11 ≤ p.capMin ∧ 10 ≤ p.txCap ∧ p.malformed.isExchange = true ∧ p.regmap.wf

/-- The default wire instruction codes (R68; 93_implementation_defined G2).
PRESUMED: from general knowledge, not in the source; log 26. -/
def defaultCodes : WireCodes :=
  { ping := 0x01, read := 0x02, write := 0x03, regWrite := 0x04, action := 0x05,
    factoryReset := 0x06, reboot := 0x08, status := 0x55 }

/-- The default Register Address Map (R196; 93_implementation_defined G8). PRESUMED; log 26. -/
def defaultRegMap : RegMap :=
  { torqueEnable := ⟨64, .one, false, 1, 1⟩
    presentPosition := ⟨132, .four, true, 88, 1000⟩
    goalPosition := ⟨116, .four, true, 88, 1000⟩
    presentVelocity := ⟨128, .four, true, 229, 1000⟩
    goalVelocity := ⟨104, .four, true, 229, 1000⟩
    presentCurrent := ⟨126, .two, true, 1, 1⟩
    goalCurrent := ⟨102, .two, true, 1, 1⟩
    temperature := ⟨146, .one, false, 1, 1⟩
    delayTime := ⟨9, .one, false, 2, 1⟩
    driveMode := ⟨10, .one, false, 1, 1⟩
    operatingMode := ⟨11, .one, false, 1, 1⟩
    baudRate := ⟨8, .one, false, 1, 1⟩ }

/-- The default `BAUD_CODE` table (R207; 93_implementation_defined G10). PRESUMED; log 26. -/
def defaultBaudCode : List (Byte × Word32) :=
  [(0, 9600), (1, 57600), (2, 115200), (3, 1000000), (4, 2000000), (5, 3000000), (6, 4000000),
   (7, 4500000)]

/-- The parameters the machine has at reset. DESIGN CHOICE for `CAP_MIN`, `TXCAP` and
`BAUD_CANDIDATES` (log 5); the others are the spec's defaults (R6). -/
def defaultParams : Params :=
  { capMin := 11
    txCap := 256
    malformed := .wrongChecksum
    codes := defaultCodes
    broadcast := 0xFE
    regmap := defaultRegMap
    mask1 := 0x01
    mask2 := 0x04
    mask3 := 0x08
    baudCode := defaultBaudCode
    baudCandidates := [1000000, 57600]
    delayOverflow := .refuse }

/-- Free value: what the receive-buffer byte at an offset holds after the compaction of that number
left unspecified (93_implementation_defined U10: "any value"). Log 8. -/
opaque freeByte : Nat → Nat → Byte

/-- Free value: the code CONFIGURE writes for a rate that `BAUD_CODE` does not list (R211 uses
`code(target_baud)` and gives it no value there). Log 13. -/
opaque freeBaudCode : Word32 → Byte

/-- Free value: the raw integer a SET writes for a value in units, `num / den` of them (R202,
93_implementation_defined U8: the conversion is an argument of the model). Log 34. -/
opaque freeRaw : Quantity → Int → Nat → Word32

/-- Free value: the drive-mode bits outside the three masks in what a SET of three flags writes
(R198 describes the masked bits only). Log 34. -/
opaque freeModeBits : Byte

/-- Free value: the u16 length prefix of a result list of that many bytes, more than the prefix can
hold (30_encoding R73). Log 33. -/
opaque freeLength : Nat → Word16

end Config

end Sys2Proof
end

