-- ==== Sys2Proof/Machine/Operands.lean ====
section
/-!
DEFINITION. Operand forms: the Byte-Pair Codec (40_checksum_bytepair R94 to R99), the serialisation
of operands and results (30_encoding R73), the code numbers (R78), the two policy operands
(44_retry_policy R171, R172) and the refill quota (43_session_exchange R141).
-/

namespace Sys2Proof

/-! ## Byte extraction (00_scope R7) -/

/-- `lo8(v) = v[7:0]`. -/
def lo8 (v : Word16) : Byte := v.setWidth 8

/-- `hi8(v) = v[15:8]`. -/
def hi8 (v : Word16) : Byte := (v >>> 8).setWidth 8

/-! ## Byte-Pair Codec -/

/-- `LE16(v) = [v[7:0], v[15:8]]` (R94). -/
def le16 (v : Word16) : List Byte := [lo8 v, hi8 v]

/-- `LE32(v) = [v[7:0], v[15:8], v[23:16], v[31:24]]` (R95). -/
def le32 (v : Word32) : List Byte :=
  [v.setWidth 8, (v >>> 8).setWidth 8, (v >>> 16).setWidth 8, (v >>> 24).setWidth 8]

/-- A wait in microseconds, little-endian (R73: a scalar operand wider than a byte). -/
def le40 (v : Word40) : List Byte :=
  [v.setWidth 8, (v >>> 8).setWidth 8, (v >>> 16).setWidth 8, (v >>> 24).setWidth 8,
   (v >>> 32).setWidth 8]

/-- The two bytes of a `U16`, low byte first: `zext(b0) | (zext(b1) << 8)` (R96). -/
def joinU16 (b0 b1 : Byte) : Word16 := b0.setWidth 16 ||| (b1.setWidth 16 <<< 8)

/-- The four bytes of a `U32`, low byte first (R97). -/
def joinU32 (b0 b1 b2 b3 : Byte) : Word32 :=
  b0.setWidth 32 ||| (b1.setWidth 32 <<< 8) ||| (b2.setWidth 32 <<< 16) ||| (b3.setWidth 32 <<< 24)

/-- The five bytes of a u40 operand, low byte first (R73). -/
def joinU40 (b0 b1 b2 b3 b4 : Byte) : Word40 :=
  b0.setWidth 40 ||| (b1.setWidth 40 <<< 8) ||| (b2.setWidth 40 <<< 16) |||
    (b3.setWidth 40 <<< 24) ||| (b4.setWidth 40 <<< 32)

/-- `U16(b)`: exactly two bytes, any other length has no value (R96). -/
def u16Of : List Byte → Option Word16
  | [b0, b1] => some (joinU16 b0 b1)
  | _ => none

/-- `U32(b)`: exactly four bytes (R97). -/
def u32Of : List Byte → Option Word32
  | [b0, b1, b2, b3] => some (joinU32 b0 b1 b2 b3)
  | _ => none

/-- `S16(b) = sext(U16(b), 16)` (R98). -/
def s16Of (b : List Byte) : Option Int := (u16Of b).map (·.toInt)

/-- `S32(b) = sext(U32(b), 32)` (R99). -/
def s32Of (b : List Byte) : Option Int := (u32Of b).map (·.toInt)

/-- A signed 16-bit result in the serialisation: two's complement, little-endian (R73, R94). -/
def le16Int (v : Int) : List Byte := le16 (BitVec.ofInt 16 v)

/-- A signed 32-bit result in the serialisation (R73, R95). -/
def le32Int (v : Int) : List Byte := le32 (BitVec.ofInt 32 v)

/-! ## Serialisation (30_encoding R73) -/

/-- A natural number as a u16 operand. -/
def natLe16 (n : Nat) : List Byte := le16 (BitVec.ofNat 16 n)

/-- The length prefix of a byte list: its length as a u16 little-endian (R73). A list that is longer than
a u16 can say, which only the results of STUFF and of a frame can be, has a free prefix: DESIGN CHOICE, log 33. -/
def lengthPrefix (n : Nat) : List Byte :=
  if n ≤ 0xFFFF then natLe16 n else le16 (Config.freeLength n)

/-- A byte list in the serialisation: its length prefix, then its bytes (R73). -/
def blob (l : List Byte) : List Byte := lengthPrefix l.length ++ l

/-- A one-bit register in the serialisation: one byte, 0 or 1 (log 10). -/
def bitByte (b : Bool) : Byte := if b then 1 else 0

/-- The number of a result code (R78). Codes 9 to D are unused. -/
def Code.number : Code → Byte
  | .success => 0x0
  | .wrongChecksum => 0x1
  | .statusError => 0x2
  | .wrongId => 0x3
  | .incompleteData => 0x4
  | .oversizedData => 0x5
  | .noResponse => 0x6
  | .wrongParameter => 0x7
  | .constructionFailure => 0x8
  | .refused => 0xE
  | .none => 0xF

/-! ## Policy operands and derived quantities -/

/-- `WAITEFF(mult)`: the default wait for 0, else the exact product in 40 bits (44_retry_policy
R171; 30_encoding R75 (a)). -/
def waitEff (waitUs : Word32) (mult : Byte) : Word40 :=
  if mult = 0 then waitUs.setWidth 40 else waitUs.setWidth 40 * mult.setWidth 40

/-- `ITERS(iters)`: 5 attempts for 0, else the exact count, in the 9 bits of `ITER_LIMIT`
(44_retry_policy R172; 10_state R16; 30_encoding R75 (b)). -/
def itersOf (iters : Byte) : BitVec 9 :=
  if iters = 0 then Config.iterDefault.setWidth 9 else iters.setWidth 9

/-- `QUOTA = max(1, floor(CAP / 2))` (43_session_exchange R141). -/
def quota (cap : Nat) : Nat := max 1 (cap / 2)

end Sys2Proof
end

