-- ==== Sys2Proof/Machine/Units.lean ====
section
/-!
DEFINITION. The arithmetic of the Device Operation Layer (45_device_ops R190 to R207): payload
layouts, decodings of the typed accessors, and the encodings of the SET accessors.
-/

namespace Sys2Proof

open Config

/-- What the Device Operation Layer hands to the host on Success (10_state R23, 45_device_ops
R186). Scaled values are exact rationals, a numerator over a denominator (R202). -/
inductive Value where
  /-- No value: a call that has none, or one that did not end in Success. -/
  | none
  | bytes (b : List Byte)
  | natural (n : Nat)
  | integer (z : Int)
  | rational (num : Int) (den : Nat)
  | flag (b : Bool)
  | flags (f1 f2 f3 : Bool)
deriving DecidableEq, Repr

/-- A width in bytes, as the `len` operand of a READ (R196). -/
def widthLen : Width → Word16
  | .one => 1
  | .two => 2
  | .four => 4

/-- Payload of a read: address, then length (R190). -/
def readPayload (addr len : Word16) : List Byte := le16 addr ++ le16 len

/-- Payload of a write or a register-write: address, then data (R191, R193). -/
def writePayload (addr : Word16) (data : List Byte) : List Byte := le16 addr ++ data

/-- The first byte of a response's parameters; the length was checked before (R192). -/
def firstByte (b : List Byte) : Byte := b.headD 0

/-- Unsigned direct value of a parameter list of the width read (R197). -/
def unsignedOf : Width → List Byte → Nat
  | .one, b => (firstByte b).toNat
  | .two, b => ((u16Of b).map (·.toNat)).getD 0
  | .four, b => ((u32Of b).map (·.toNat)).getD 0

/-- Little-endian signed reassembly of a parameter list of the width read (R200, R201). -/
def signedOf : Width → List Byte → Int
  | .one, b => (firstByte b).toInt
  | .two, b => (s16Of b).getD 0
  | .four, b => (s32Of b).getD 0

/-- The raw integer of a parameter list, by signedness and width (R196). -/
def rawOf (signed : Bool) (w : Width) (b : List Byte) : Int :=
  if signed then signedOf w b else (unsignedOf w b : Int)

/-- A raw integer in a row's units, exactly (R202): a fraction where the scale is one. -/
def scaledValue (e : Row) (raw : Int) : Value :=
  if e.den ≠ 1 then .rational (raw * e.num) e.den
  else if e.signed then .integer (raw * e.num)
  else .natural (raw * e.num).toNat

/-- Torque enable: `b[0] != 0` (R203). -/
def torqueValue (b : List Byte) : Value := .flag (firstByte b != 0)

/-- Drive mode: three flags by the fixed masks (R198). -/
def driveModeValue (p : Params) (b : List Byte) : Value :=
  .flags ((firstByte b &&& p.mask1) != 0) ((firstByte b &&& p.mask2) != 0)
    ((firstByte b &&& p.mask3) != 0)

/-- A numeric quantity: the raw integer of the row's width and signedness, times its scale (R197, R199 to
R202, R205 to R207). -/
def numericValue (e : Row) (b : List Byte) : Value := scaledValue e (rawOf e.signed e.width b)

/-- Return delay time: the scale times `b[0]` (R204). -/
def delayValue (e : Row) (b : List Byte) : Value := scaledValue e (rawOf e.signed .one b)

/-- What `GET_q` makes of the parameter bytes (R197 to R207). -/
def decodeQuantity (p : Params) (q : Quantity) (b : List Byte) : Value :=
  match q with
  | .torqueEnable => torqueValue b
  | .presentPosition => numericValue p.regmap.presentPosition b
  | .goalPosition => numericValue p.regmap.goalPosition b
  | .presentVelocity => numericValue p.regmap.presentVelocity b
  | .goalVelocity => numericValue p.regmap.goalVelocity b
  | .presentCurrent => numericValue p.regmap.presentCurrent b
  | .goalCurrent => numericValue p.regmap.goalCurrent b
  | .temperature => numericValue p.regmap.temperature b
  | .delayTime => delayValue p.regmap.delayTime b
  | .driveMode => driveModeValue p b
  | .operatingMode => numericValue p.regmap.operatingMode b
  | .baudRate => numericValue p.regmap.baudRate b

/-- The byte `SET_torque_enable` writes (R203). -/
def torqueByte (on : Bool) : Byte := if on then 0x01 else 0x00

/-- The byte `SET_delay_time` writes: `(us + 1) / 2`, or none when it does not fit and the parameter
of U9 says refuse (R204; 93_implementation_defined U9; log 14). -/
def delayByte (p : Params) (us : Nat) : Option Byte :=
  if (us + 1) / 2 ≤ 255 then some (BitVec.ofNat 8 ((us + 1) / 2))
  else
    match p.delayOverflow with
    | .refuse => none
    | .truncate => some (BitVec.ofNat 8 ((us + 1) / 2))
    | .saturate => some 0xFF

/-- A code operand of a SET: one byte (R206, R207); none when the number is no byte. -/
def codeByte (n : Nat) : Option (List Byte) :=
  if n ≤ 255 then some [BitVec.ofNat 8 n] else none

/-- A raw integer at a row's width, little-endian (R196, R199: the inverse of the reassembly). -/
def rawBytes (w : Width) (raw : Word32) : List Byte := (le32 raw).take (widthLen w).toNat

/-- An unsigned direct value at a row's width (R197); a value that does not fit is a free raw integer
(log 34). -/
def unsignedBytes (q : Quantity) (w : Width) (n : Nat) : List Byte :=
  rawBytes w (if n < 256 ^ (widthLen w).toNat then BitVec.ofNat 32 n else freeRaw q n 1)

/-- The drive-mode byte with these three flags (R198), the other bits free (log 34). -/
def driveModeByte (p : Params) (f1 f2 f3 : Bool) : Byte :=
  (freeModeBits &&& ~~~(p.mask1 ||| p.mask2 ||| p.mask3)) ||| (if f1 then p.mask1 else 0) |||
    (if f2 then p.mask2 else 0) ||| (if f3 then p.mask3 else 0)

/-- A value in units as a fraction: the whole numbers over 1. None for a flag or a byte list. -/
def Value.fraction : Value → Option (Int × Nat)
  | .none => Option.none
  | .bytes _ => Option.none
  | .natural n => some (n, 1)
  | .integer z => some (z, 1)
  | .rational num den => some (num, den)
  | .flag _ => Option.none
  | .flags _ _ _ => Option.none

/-- What a SET of a scaled quantity writes, at its row's width: the conversion from units is open (R202,
93_implementation_defined U8), so the raw integer is free (log 34). -/
def scaledBytes (p : Params) (q : Quantity) (v : Value) : Option (List Byte) :=
  v.fraction.map (fun x => rawBytes (p.regmap.row q).width (freeRaw q x.1 x.2))

/-- What `SET_q` writes for a value (R197, R198, R202 to R204, R206, R207). None: the value is not of the
quantity's kind, or U9 refuses it. -/
def encodeQuantity (p : Params) (q : Quantity) (v : Value) : Option (List Byte) :=
  match q, v with
  | .torqueEnable, .flag on => some [torqueByte on]
  | .temperature, .natural n => some (unsignedBytes .temperature p.regmap.temperature.width n)
  | .delayTime, .natural us => (delayByte p us).map (fun b => [b])
  | .driveMode, .flags f1 f2 f3 => some [driveModeByte p f1 f2 f3]
  | .operatingMode, .natural n => codeByte n
  | .baudRate, .natural n => codeByte n
  | .presentPosition, v => scaledBytes p .presentPosition v
  | .goalPosition, v => scaledBytes p .goalPosition v
  | .presentVelocity, v => scaledBytes p .presentVelocity v
  | .goalVelocity, v => scaledBytes p .goalVelocity v
  | .presentCurrent, v => scaledBytes p .presentCurrent v
  | .goalCurrent, v => scaledBytes p .goalCurrent v
  | _, _ => none

/-- `code(target_baud)`: the first row of `BAUD_CODE` with that rate; a free value for a rate that
has none (R207, R211; log 13). -/
def baudCodeOf (p : Params) (baud : Word32) : Byte :=
  match p.baudCode.find? (fun row => row.2 = baud) with
  | some row => row.1
  | none => freeBaudCode baud

end Sys2Proof
end

