-- ==== Sys2Proof/Machine/Checksum.lean ====
section
/-!
DEFINITION. The Checksum Engine (40_checksum_bytepair R90 to R93).
-/

namespace Sys2Proof

/-- One shift-and-conditional-XOR step: the test of bit 15 is made before the shift (R90). -/
def crcStep (c : Word16) : Word16 :=
  if c.getLsbD 15 then (c <<< 1) ^^^ Config.poly else c <<< 1

/-- `n` steps. -/
def crcSteps : Nat → Word16 → Word16
  | 0, c => c
  | n + 1, c => crcSteps n (crcStep c)

/-- One byte: exclusive-or into bits 15..8, then eight steps (R90). -/
def crcByte (c : Word16) (b : Byte) : Word16 := crcSteps 8 (c ^^^ (b.setWidth 16 <<< 8))

/-- `CRC16_from(c0, data)` (R93). -/
def crcFrom (c0 : Word16) (data : List Byte) : Word16 := data.foldl crcByte c0

/-- `CRC16(data)` (R90). -/
def crc16 (data : List Byte) : Word16 := crcFrom Config.crcInit data

end Sys2Proof
end

