-- ==== Sys2Proof/Machine/Frame.lean ====
section
/-!
DEFINITION. The Frame Codec as pure functions (41_frame_encode, 42_frame_decode): STUFF, the
instruction frame, HDRFIND, DESTUFF, DECODE and the status view of a decoded frame.
-/

namespace Sys2Proof

/-! ## STUFF (R105) -/

/-- STUFF with the two payload bytes before the scan: `b2` at distance 2, `b1` at distance 1. A
position without a predecessor has `00` there, which is no byte of `SIG`, so nothing is inserted
before the third payload byte. -/
def stuffFrom (b2 b1 : Byte) : List Byte → List Byte
  | [] => []
  | b :: bs =>
    if b2 = 0xFF ∧ b1 = 0xFF ∧ b = 0xFD then b :: Config.stuffByte :: stuffFrom b1 b bs
    else b :: stuffFrom b1 b bs

/-- `STUFF(p)` (R105): the lookback window is over the input payload. -/
def stuff (p : List Byte) : List Byte := stuffFrom 0 0 p

/-! ## DESTUFF (R123) -/

/-- DESTUFF with the three raw bytes before position `j`. A position without a predecessor has `00`
there, so nothing is dropped before the fourth raw byte. -/
def destuffFrom (b3 b2 b1 : Byte) : List Byte → List Byte
  | [] => []
  | b :: bs =>
    if b3 = 0xFF ∧ b2 = 0xFF ∧ b1 = 0xFD then destuffFrom b2 b1 b bs
    else b :: destuffFrom b2 b1 b bs

/-- `DESTUFF(r)` (R123): windows over the raw region, the dropped byte is not compared. -/
def destuff (r : List Byte) : List Byte := destuffFrom 0 0 0 r

/-! ## The instruction frame (R60, R108) -/

/-- A frame up to its checksum, for an already stuffed content region (R60). -/
def frameHead (id instr : Byte) (s : List Byte) : List Byte :=
  Config.hdr ++ [id] ++ natLe16 (s.length + 3) ++ [instr] ++ s

/-- The frame `ENCODE(id, instr, p)` returns (R108 steps 1 to 4). -/
def frameOf (id instr : Byte) (p : List Byte) : List Byte :=
  frameHead id instr (stuff p) ++ le16 (crc16 (frameHead id instr (stuff p)))

/-- The precondition of ENCODE: the frame fits the send buffer and the length field (R110). -/
def frameFits (txCap : Nat) (p : List Byte) : Bool :=
  10 + (stuff p).length ≤ txCap ∧ (stuff p).length + 3 ≤ 0xFFFF

/-! ## HDRFIND (R120) -/

/-- The search from offset `h` on, over the bytes that stand there. -/
def hdrfindFrom (h : Nat) : List Byte → Option Nat
  | [] => none
  | b :: bs => if (b :: bs).take 4 = Config.hdr then some h else hdrfindFrom (h + 1) bs

/-- `HDRFIND(buf)`: the lowest offset of a whole header, if there is one (R120). -/
def hdrfind (buf : List Byte) : Option Nat := hdrfindFrom 0 buf

/-! ## DECODE (R126) -/

/-- `buf[a..b)` (00_scope R7). -/
def slice (buf : List Byte) (a b : Nat) : List Byte := (buf.drop a).take (b - a)

/-- The fields DECODE extracts from a fully present frame (R126, R129). -/
structure Fields where
  keep : Nat
  id : Byte
  instr : Byte
  content : List Byte
  crcCalc : Word16
  crcWire : Word16
deriving DecidableEq, Repr

/-- The five decode outcomes (30_encoding R79). -/
inductive DecodeResult where
  | headerNotFound (keep : Nat)
  | incomplete (keep : Nat)
  | checksumMismatch (f : Fields)
  | success (f : Fields)
  | malformed (keep : Nat)
deriving DecidableEq, Repr

/-- The decode-outcome code `dout` (30_encoding R79). -/
def DecodeResult.number : DecodeResult → Byte
  | .headerNotFound _ => 0
  | .incomplete _ => 1
  | .checksumMismatch _ => 2
  | .success _ => 3
  | .malformed _ => 4

/-- The keep offset of a decode outcome (R127). -/
def DecodeResult.keep : DecodeResult → Nat
  | .headerNotFound k => k
  | .incomplete k => k
  | .checksumMismatch f => f.keep
  | .success f => f.keep
  | .malformed k => k

/-- Byte `i` of a buffer; the rules use it only below the buffer's length (R126). -/
def byteAt (buf : List Byte) (i : Nat) : Byte := buf.getD i 0

/-- `FLEN = 7 + L` of the frame at `h`, from its length field (30_encoding R67, R77). -/
def frameLenAt (buf : List Byte) (h : Nat) : Nat :=
  7 + (joinU16 (byteAt buf (h + 5)) (byteAt buf (h + 6))).toNat

/-- The fields of the fully present frame at `h` (R126). -/
def fieldsAt (buf : List Byte) (h : Nat) : Fields :=
  let flen := frameLenAt buf h
  { keep := h
    id := byteAt buf (h + 4)
    instr := byteAt buf (h + 7)
    content := destuff (slice buf (h + 8) (h + flen - 2))
    crcCalc := crc16 (slice buf h (h + flen - 2))
    crcWire := joinU16 (byteAt buf (h + flen - 2)) (byteAt buf (h + flen - 1)) }

/-- DECODE of the frame whose header stands at `h` (R126, R128, R132). -/
def decodeAt (buf : List Byte) (h : Nat) : DecodeResult :=
  if buf.length < h + 7 then .incomplete h
  else if buf.length < h + frameLenAt buf h then .incomplete h
  else if frameLenAt buf h < 10 then .malformed h
  else if (fieldsAt buf h).crcCalc ≠ (fieldsAt buf h).crcWire then
    .checksumMismatch (fieldsAt buf h)
  else .success (fieldsAt buf h)

/-- `DECODE(buf)` (R126). -/
def decodeFrameBytes (buf : List Byte) : DecodeResult :=
  match hdrfind buf with
  | none => .headerNotFound (buf.length - 3)
  | some h => decodeAt buf h

/-! ## The status view of a decoded frame (R130) -/

/-- The error byte: the first byte of the content, `00` when the content is empty (R130, R152). -/
def errOf (content : List Byte) : Byte := content.headD 0

/-- The parameter bytes: the rest of the content (R130). -/
def paramsOf (content : List Byte) : List Byte := content.drop 1

end Sys2Proof
end

