-- ==== Sys2Proof/Syntax.lean ====
section
/-!
DEFINITION. The instructions: one constructor per row of spec/opcode_table.json, the sixteen
commands of the command port (30_encoding R74), the eight wire instructions (R68) and the
twenty-one calls of the Device Operation Layer (R84).
-/

namespace Sys2Proof

/-- The two forms of a device-level call (30_encoding R84, 44_retry_policy R178): through XCHGR, or
the single-shot form written with the suffix `.1`. -/
inductive Form where
  | retried
  | single
deriving DecidableEq, Repr

/-- The instructions of the opcode table. In the device-level calls `m` and `n` are the wait
multiplier and the iteration count (45_device_ops R186). -/
inductive Instr where
  -- commands of the command port (R74)
  | crc16 (data : List Byte)
  | le16 (v : Word16)
  | le32 (v : Word32)
  | u16 (b : List Byte)
  | u32 (b : List Byte)
  | s16 (b : List Byte)
  | s32 (b : List Byte)
  | stuff (p : List Byte)
  | encode (id instr : Byte) (p : List Byte)
  | hdrfind (buf : List Byte)
  | destuff (r : List Byte)
  | decode (buf : List Byte)
  | xchg (id instr : Byte) (p : List Byte) (wait : Word40)
  | xchgr (id instr : Byte) (p : List Byte) (mult iters : Byte)
  | init (cap : Word16) (waitUs baud : Word32) (bits stop parity : Byte)
  | setbaud (baud : Word32)
  -- wire instructions (R68)
  | wPing (id : Byte)
  | wRead (id : Byte) (addr len : Word16)
  | wWrite (id : Byte) (addr : Word16) (data : List Byte)
  | wRegWrite (id : Byte) (addr : Word16) (data : List Byte)
  | wAction (id : Byte)
  | wFactoryReset (id mode : Byte)
  | wReboot (id : Byte)
  | wStatus (id err : Byte) (params : List Byte)
  -- calls of the Device Operation Layer (R84)
  | ping (f : Form) (id m n : Byte)
  | read (f : Form) (id : Byte) (addr len : Word16) (m n : Byte)
  | write (f : Form) (id : Byte) (addr : Word16) (data : List Byte) (m n : Byte)
  | regwrite (f : Form) (id : Byte) (addr : Word16) (data : List Byte) (m n : Byte)
  | action (f : Form) (id m n : Byte)
  | freset (f : Form) (id mode m n : Byte)
  | reboot (f : Form) (id m n : Byte)
  | getTorqueEnable (f : Form) (id m n : Byte)
  | setTorqueEnable (f : Form) (id : Byte) (on : Bool) (m n : Byte)
  | getPosition (f : Form) (id m n : Byte)
  | getVelocity (f : Form) (id m n : Byte)
  | getCurrent (f : Form) (id m n : Byte)
  | getTemperature (f : Form) (id m n : Byte)
  | getDelayTime (f : Form) (id m n : Byte)
  | setDelayTime (f : Form) (id : Byte) (us : Nat) (m n : Byte)
  | getDriveMode (f : Form) (id m n : Byte)
  | getOperatingMode (f : Form) (id m n : Byte)
  | setOperatingMode (f : Form) (id code m n : Byte)
  | getBaudRate (f : Form) (id m n : Byte)
  | setBaudRate (f : Form) (id code m n : Byte)
  | configure (f : Form) (id : Byte) (targetBaud : Word32) (delayUs : Nat) (opmode : Byte)
deriving DecidableEq, Repr

end Sys2Proof
end

