-- ==== Sys2Proof/WellFormed.lean ====
section
/-!
DEFINITION. Which instructions have words: the length limits of the serialisation (30_encoding
R73: a byte list's length is a u16) and of the wire frame's length field (R62, R67).
-/

namespace Sys2Proof

/-- A byte list whose length fits the u16 length prefix of R73. -/
def listFits (l : List Byte) : Bool := l.length ≤ 0xFFFF

/-- A wire payload whose frame has a length field: `S + 3` is a u16 (R62). -/
def payloadFits (p : List Byte) : Bool := (stuff p).length + 3 ≤ 0xFFFF

/-- The instructions the encodings of 30_encoding have room for: every byte-list operand of a
command, and of the command a device-level call expands to, fits a u16 length (R73), and every wire
payload fits the length field of its frame (R62). -/
def Instr.wellFormed : Instr → Bool
  | .crc16 data => listFits data
  | .le16 _ => true
  | .le32 _ => true
  | .u16 b => listFits b
  | .u32 b => listFits b
  | .s16 b => listFits b
  | .s32 b => listFits b
  | .stuff p => listFits p
  | .encode _ _ p => listFits p
  | .hdrfind buf => listFits buf
  | .destuff r => listFits r
  | .decode buf => listFits buf
  | .xchg _ _ p _ => listFits p
  | .xchgr _ _ p _ _ => listFits p
  | .init _ _ _ _ _ _ => true
  | .setbaud _ => true
  | .wPing _ => true
  | .wRead _ _ _ => true
  | .wWrite _ addr data => payloadFits (Sys2Proof.le16 addr ++ data)
  | .wRegWrite _ addr data => payloadFits (Sys2Proof.le16 addr ++ data)
  | .wAction _ => true
  | .wFactoryReset _ _ => true
  | .wReboot _ => true
  | .wStatus _ err params => payloadFits (err :: params)
  | .ping _ _ _ _ => true
  | .read _ _ _ _ _ _ => true
  | .write _ _ _ data _ _ => data.length + 2 ≤ 0xFFFF
  | .regwrite _ _ _ data _ _ => data.length + 2 ≤ 0xFFFF
  | .action _ _ _ _ => true
  | .freset _ _ _ _ _ => true
  | .reboot _ _ _ _ => true
  | .getTorqueEnable _ _ _ _ => true
  | .setTorqueEnable _ _ _ _ _ => true
  | .getPosition _ _ _ _ => true
  | .getVelocity _ _ _ _ => true
  | .getCurrent _ _ _ _ => true
  | .getTemperature _ _ _ _ => true
  | .getDelayTime _ _ _ _ => true
  | .setDelayTime _ _ _ _ _ => true
  | .getDriveMode _ _ _ _ => true
  | .getOperatingMode _ _ _ _ => true
  | .setOperatingMode _ _ _ _ _ => true
  | .getBaudRate _ _ _ _ => true
  | .setBaudRate _ _ _ _ _ => true
  | .configure _ _ _ _ _ => true

end Sys2Proof
end

