-- ==== Sys2Proof/Machine/State.lean ====
section
/-!
DEFINITION. The state of DXLFC: everything 10_state gives the block, the transport as an oracle with
state of its own (20_memory R52), the host's pending requests and the results handed back. Plain data.
-/

namespace Sys2Proof.Machine

/-! ## Memory (20_memory R40) -/

/-- A buffer: its bytes by offset, in one canonical form (see `Memory.wf`). An offset that is not
listed reads `00`: the reset contents of the receive buffer (10_state R21). -/
abbrev Memory := List Host.Cell

/-- The canonical form: offsets strictly rising, no entry equal to what an unlisted offset reads. -/
abbrev Memory.wf (m : Memory) : Prop :=
  List.Pairwise (fun a b => a.1 < b.1) m ∧ ∀ c ∈ m, c.2 ≠ 0

/-! ## Registers -/

/-- The request latches (10_state R13). `REQ_PLEN` is the length of `payload`. -/
structure ReqLatches where
  id : Byte
  instr : Byte
  payload : List Byte
  wait : Word40
deriving DecidableEq, Repr

/-- The response registers (10_state R14), but for `ATTEMPT`. `RESP_PLEN` is the length of
`params`. -/
structure RespRegs where
  outcome : Code
  valid : Bool
  id : Byte
  instr : Byte
  err : Byte
  params : List Byte
  crcCalc : Word16
  crcWire : Word16
deriving DecidableEq, Repr

/-- The loop state of the Retry/Timeout Policy (10_state R14, R16). -/
structure PolicyRegs where
  attempt : Byte
  iterLimit : BitVec 9
deriving DecidableEq, Repr

/-- The exchange state register, the program-counter analogue (10_state R15). -/
inductive XState where
  | idle
  | sent
  | draining
deriving DecidableEq, Repr

/-- The re-synchronisation state (10_state R18). -/
inductive RState where
  | seeking
  | partialFrame
deriving DecidableEq, Repr

/-- The flags (10_state R17, R18). There are no arithmetic condition codes (R19). -/
structure FlagRegs where
  hdrSeen : Bool
  rstate : RState
deriving DecidableEq, Repr

/-- The configuration registers (10_state R20). -/
structure CfgRegs where
  cap : Nat
  waitUs : Word32
  baud : Word32
  actualBaud : Word32
  ready : Bool
deriving DecidableEq, Repr

/-- The receive buffer and its fill count (10_state R21). After a compaction the bytes at offsets
`len ≤ i < vacated` hold free values, numbered by `gen` (R145, U10; log 8). -/
structure RxBuf where
  mem : Memory
  len : Nat
  vacated : Nat
  gen : Nat
deriving DecidableEq, Repr

/-- The send buffer and `TXLEN` (10_state R22). -/
structure TxBuf where
  mem : Memory
  len : Nat
deriving DecidableEq, Repr

/-! ## The transport (20_memory R46 to R52; 95_test_vectors 3.1) -/

/-- Bytes that arrive together, `gap` microseconds after what came before them. -/
structure Chunk where
  gap : Nat
  bytes : List Byte
deriving DecidableEq, Repr

/-- How the channel answers one `T.send`: ok with what arrives in reply, or fail. -/
structure Reply where
  ok : Bool
  chunks : List Chunk
deriving DecidableEq, Repr

/-- How the channel answers a `T.read_one` when it is ready: with the oldest byte, or with none all the same
(43_session_exchange R143 (b)). After none the channel may still be ready, or ready only when `gap` microseconds
have passed: R52 (b) promises neither. Log 35. -/
inductive ReadAnswer where
  | gives
  | stays
  | withdraws (gap : Nat)
deriving DecidableEq, Repr

/-- The channel: its state, and the plan of what it will do (log 3). -/
structure Transport where
  /-- Received bytes that `T.read_one` can take now, oldest first (10_state R24). -/
  avail : List Byte
  /-- What is still to arrive, in order. -/
  future : List Chunk
  /-- The answers to the next sends; with none left a send succeeds and nothing comes back. -/
  replies : List Reply
  /-- The frames sent so far, oldest first. -/
  sent : List (List Byte)
  /-- Microseconds that pass before each of the next calls; with none left no time passes. -/
  lag : List Nat
  /-- How each of the next `T.read_one` calls on a ready channel answers (43_session_exchange R143
  (b); log 35); with none left it gives the byte. -/
  balk : List ReadAnswer
  /-- Once nothing more is to arrive, the bytes the line delivers round and round for ever, one to
  each wait (70_reset_and_hazards R263); empty for a line that goes quiet. -/
  babble : List Byte
  /-- The `actual_baud` that `T.configure` returns (R46, R257; U19 "any value"). -/
  grantedBaud : Word32
  /-- The registry reports the transport or a signal line as already claimed (R256). DESIGN CHOICE: no
  step changes it, so two INITs of one run get the same answer (when a claim is released is open, N30;
  log 32). -/
  claimed : Bool
  /-- Baud rate and line settings of the channel (10_state R25). -/
  baud : Word32
  bits : Byte
  stop : Byte
  parity : Byte
deriving DecidableEq, Repr

/-! ## The host's side -/

/-- `GET_q` and `SET_q` for any quantity of the Register Address Map, in both forms (30_encoding R84,
45_device_ops R196 to R208). The opcode table has rows for thirteen of them; log 34. -/
inductive Accessor where
  | get (f : Form) (q : Config.Quantity) (id m n : Byte)
  | set (f : Form) (q : Config.Quantity) (id : Byte) (v : Value) (m n : Byte)
deriving DecidableEq, Repr

/-- One request of the host. The words of a command go to the command port (30_encoding R73); a wire
instruction is named by its frame (R68); a device-level call, which has no words of its own, is
told by name (R84), an accessor also by its quantity. Log 2, log 34. -/
inductive Request where
  | command (bytes : List Byte)
  | frame (bytes : List Byte)
  | call (i : Instr)
  | access (a : Accessor)
deriving DecidableEq, Repr

/-- The result the command port presents: result code and serialised result operands (R73, R78). -/
structure Result where
  code : Code
  data : List Byte
deriving DecidableEq, Repr

/-- What the Device Operation Layer answered last: outcome code and value (45_device_ops R186). -/
structure DeviceReply where
  code : Code
  value : Value
deriving DecidableEq, Repr

/-! ## State, faults, refusals -/

/-- The machine. -/
structure State where
  /-- The open parameters (00_scope R6); no instruction writes them (log 5). -/
  params : Config.Params
  req : ReqLatches
  resp : RespRegs
  policy : PolicyRegs
  xstate : XState
  flags : FlagRegs
  cfg : CfgRegs
  rx : RxBuf
  tx : TxBuf
  line : Transport
  /-- The requests the host has still to issue, in order. -/
  port : List Request
  result : Result
  device : DeviceReply
deriving DecidableEq, Repr

/-- Why the machine stops. -/
inductive Fault where
  /-- Raised by XCHG, XCHGR and every device-level call when the exchange never ends: the line
  delivers header-free bytes for ever with no gap as long as the wait (43_session_exchange R157,
  70_reset_and_hazards R263, 93_implementation_defined U14 "stuck"). Safe: the block stays in
  Draining for ever and no command after it is executed. Log 4. -/
  | exchangeNeverEnds
deriving DecidableEq, Repr

/-- Why an instruction has no meaning. -/
inductive Refusal where
  /-- Raised by an arm of `exec` that has no meaning yet. Safe: nothing can be proved of what the
  instruction does. -/
  | notModelled (mnemonic : String)
deriving DecidableEq, Repr

/-! ## Reset (70_reset_and_hazards R250) -/

/-- A transport that is quiet, has nothing pending and is not configured. DESIGN CHOICE (log 6):
R250 leaves the pending input and the line settings unspecified, and names neither the registry's answer
(R256: here "not claimed") nor the rate `T.configure` will return (R257: here 0). -/
def Transport.quiet : Transport :=
  { avail := [], future := [], replies := [], sent := [], lag := [], balk := [], babble := [],
    grantedBaud := 0, claimed := false, baud := 0, bits := 0, stop := 0, parity := 0 }

/-- The machine right after reset: the table of R250. `CFG_WAIT_US`, `CFG_BAUD`, `CFG_ACTUAL_BAUD`
(log 6) and `TXBUF` (log 7) are unspecified there and 0 here: DESIGN CHOICE. -/
def State.reset : State :=
  { params := Config.defaultParams
    req := { id := 0, instr := 0, payload := [], wait := 0 }
    resp := { outcome := .none, valid := false, id := 0, instr := 0, err := 0, params := [],
              crcCalc := 0, crcWire := 0 }
    policy := { attempt := 0, iterLimit := 0 }
    xstate := .idle
    flags := { hdrSeen := false, rstate := .seeking }
    cfg := { cap := Config.defaultParams.capMin, waitUs := 0, baud := 0, actualBaud := 0,
             ready := false }
    rx := { mem := [], len := 0, vacated := 0, gen := 0 }
    tx := { mem := [], len := 0 }
    line := Transport.quiet
    port := []
    result := { code := .none, data := [] }
    device := { code := .none, value := .none } }

end Sys2Proof.Machine
end

