-- ==== Sys2Proof/Machine/Ops.lean ====
section
/-!
DEFINITION. The named operations over buffers and registers: `MemRead` and `MemWrite` (00_scope R7),
presenting a result (30_encoding R73), refusing a command (60_exceptions R230), and ending an exchange
(R232), which is this machine's exception entry. There is no return from it (R233).
-/

namespace Sys2Proof.Machine

/-! ## Buffers (20_memory R40, R41) -/

/-- One byte of a buffer. -/
def Memory.read : Memory → Nat → Byte
  | [], _ => 0
  | c :: m, a => if c.1 = a then c.2 else Memory.read m a

/-- Write one byte of a buffer, keeping the canonical form. -/
def Memory.write : Memory → Nat → Byte → Memory
  | [], a, b => if b = 0 then [] else [(a, b)]
  | c :: m, a, b =>
    if c.1 < a then c :: Memory.write m a b
    else if c.1 = a then (if b = 0 then m else (a, b) :: m)
    else (if b = 0 then c :: m else (a, b) :: c :: m)

/-- `MemRead(B, a, n)` (R7). -/
def Memory.readBytes (m : Memory) (a : Nat) : Nat → List Byte
  | 0 => []
  | n + 1 => m.read a :: Memory.readBytes m (a + 1) n

/-- `MemWrite(B, a, s)` (R7). -/
def Memory.writeBytes (m : Memory) (a : Nat) : List Byte → Memory
  | [] => m
  | b :: bs => Memory.writeBytes (m.write a b) (a + 1) bs

/-- Write `00` to the offsets `0 .. n-1`. -/
def Memory.zeroTo (m : Memory) (n : Nat) : Memory := m.filter (fun c => n ≤ c.1)

/-! ## Accessors -/

/-- `REQ_PLEN` (10_state R13). -/
def State.reqPlen (s : State) : Nat := s.req.payload.length

/-- `RESP_PLEN` (10_state R14). -/
def State.respPlen (s : State) : Nat := s.resp.params.length

/-- The code of `XSTATE` (10_state R15); code 3 is unused. -/
def XState.number : XState → BitVec 2
  | .idle => 0
  | .sent => 1
  | .draining => 2

/-- The code of `RSTATE` (10_state R18). -/
def RState.number : RState → BitVec 1
  | .seeking => 0
  | .partialFrame => 1

/-- A byte of `RXBUF` as the host reads it between commands (60_exceptions R244): a free value at and beyond
`RXLEN` after a compaction (R145, D16, U10; log 8). -/
def State.rxByte (s : State) (i : Nat) : Byte :=
  if s.rx.len ≤ i ∧ i < s.rx.vacated then Config.freeByte s.rx.gen i else s.rx.mem.read i

/-- `RXBUF[0..RXLEN)` (10_state R21). -/
def State.rxBytes (s : State) : List Byte := s.rx.mem.readBytes 0 s.rx.len

/-- A byte of `TXBUF` (10_state R22). -/
def State.txByte (s : State) (i : Nat) : Byte := s.tx.mem.read i

/-- `TXBUF[0..TXLEN)` (10_state R22). -/
def State.txBytes (s : State) : List Byte := s.tx.mem.readBytes 0 s.tx.len

/-! ## Results (30_encoding R73) -/

/-- Complete a command: present its result code and result operands. -/
def present (code : Code) (data : List Byte) (s : State) : State :=
  { s with result := { code := code, data := data } }

/-- Refuse a command: result code `Refused` and no other state change (60_exceptions R230). -/
def refuse (s : State) : State := present .refused [] s

/-- The outcome code and value the Device Operation Layer hands to the host (45_device_ops R186). -/
def reply (code : Code) (value : Value) (s : State) : State :=
  { s with device := { code := code, value := value } }

/-- `OUTCOME` and the response registers as result operands (30_encoding R74): `RESP_PLEN` is the
length prefix of `RESP_PARAMS`. Log 11. -/
def respData (s : State) : List Byte :=
  [s.resp.outcome.number, bitByte s.resp.valid, s.resp.id, s.resp.instr, s.resp.err] ++
    blob s.resp.params ++ le16 s.resp.crcCalc ++ le16 s.resp.crcWire ++ [s.policy.attempt]

/-! ## Ending an exchange (60_exceptions R232) -/

/-- `raise Outcome(o)`: `OUTCOME <- o`, `XSTATE <- Idle`, and nothing else. -/
def raiseOutcome (o : Code) (s : State) : State :=
  { s with resp := { s.resp with outcome := o }, xstate := .idle }

/-! ## The send buffer (41_frame_encode R108) -/

/-- ENCODE's state change: the frame stands at offset 0 of `TXBUF`, and `TXLEN` is its length. -/
def encodeInto (id instr : Byte) (p : List Byte) (s : State) : State :=
  { s with
    tx := { mem := s.tx.mem.writeBytes 0 (frameOf id instr p), len := (frameOf id instr p).length } }

/-! ## The receive buffer (43_session_exchange R142, R145, R148) -/

/-- The bytes `0 .. CAP-1` of `RXBUF` are zeroed and `RXLEN` is 0 (R148 step 2, R187). -/
def clearRx (s : State) : State :=
  { s with rx := { s.rx with mem := s.rx.mem.zeroTo s.cfg.cap, len := 0, vacated := 0 } }

/-- Append one byte at `RXLEN` (R142). -/
def appendRx (b : Byte) (s : State) : State :=
  { s with rx := { s.rx with mem := s.rx.mem.write s.rx.len b, len := s.rx.len + 1 } }

/-- `COMPACT(k)` (R145): the bytes from `k` on move to offset 0. The bytes at and beyond the new `RXLEN` are
unspecified afterwards: free values with a number of their own, up to the buffer's end (log 8). `COMPACT(0)` changes
nothing. -/
def compact (k : Nat) (s : State) : State :=
  if k = 0 then s
  else
    { s with
      rx := { mem := (s.rx.mem.zeroTo s.rx.len).writeBytes 0
                (s.rx.mem.readBytes k (s.rx.len - k))
              len := s.rx.len - k
              vacated := s.cfg.cap
              gen := s.rx.gen + 1 } }

end Sys2Proof.Machine
end

