-- ==== Sys2Proof/Machine/Codec.lean ====
section
/-!
DEFINITION. Meanings of the pure commands and of ENCODE (40_checksum_bytepair, 41_frame_encode,
42_frame_decode; 60_exceptions R230, R231). The pure commands write nothing but the result.
-/

namespace Sys2Proof.Machine

/-- Run a command when the block is Idle; else refuse it: Busy (R230). -/
def ifIdle (k : State → State) (s : State) : State := if s.xstate = .idle then k s else refuse s

/-- CRC16 (R90): result `crc: u16`. -/
def execCrc16 (data : List Byte) (s : State) : Host.Outcome State Fault Refusal :=
  .next (ifIdle (present .success (le16 (crc16 data))) s)

/-- LE16 (R94): result `b: bytes[2]`. -/
def execLe16 (v : Word16) (s : State) : Host.Outcome State Fault Refusal :=
  .next (ifIdle (present .success (blob (le16 v))) s)

/-- LE32 (R95): result `b: bytes[4]`. -/
def execLe32 (v : Word32) (s : State) : Host.Outcome State Fault Refusal :=
  .next (ifIdle (present .success (blob (le32 v))) s)

/-- Present the operands of a function that is defined for one list length only; any other length is
refused: BadLength (R230). -/
def presentOrRefuse (data : Option (List Byte)) (s : State) : State :=
  match data with
  | some d => present .success d s
  | none => refuse s

/-- U16 (R96): result `v: u16`; BadLength unless `b` has 2 bytes. -/
def execU16 (b : List Byte) (s : State) : Host.Outcome State Fault Refusal :=
  .next (ifIdle (presentOrRefuse ((u16Of b).map le16)) s)

/-- U32 (R97): result `v: u32`; BadLength unless `b` has 4 bytes. -/
def execU32 (b : List Byte) (s : State) : Host.Outcome State Fault Refusal :=
  .next (ifIdle (presentOrRefuse ((u32Of b).map le32)) s)

/-- S16 (R98): result `v: i16`; BadLength unless `b` has 2 bytes. -/
def execS16 (b : List Byte) (s : State) : Host.Outcome State Fault Refusal :=
  .next (ifIdle (presentOrRefuse ((s16Of b).map le16Int)) s)

/-- S32 (R99): result `v: i32`; BadLength unless `b` has 4 bytes. -/
def execS32 (b : List Byte) (s : State) : Host.Outcome State Fault Refusal :=
  .next (ifIdle (presentOrRefuse ((s32Of b).map le32Int)) s)

/-- STUFF (R105): result `s: bytes`. -/
def execStuff (p : List Byte) (s : State) : Host.Outcome State Fault Refusal :=
  .next (ifIdle (present .success (blob (stuff p))) s)

/-- ENCODE as a command: refused when the frame does not fit (R110), else the frame stands in
`TXBUF` and is the result (R108). -/
def encodeCommand (id instr : Byte) (p : List Byte) (s : State) : State :=
  if frameFits s.params.txCap p then
    present .success (blob (frameOf id instr p)) (encodeInto id instr p s)
  else refuse s

/-- ENCODE (R108). -/
def execEncode (id instr : Byte) (p : List Byte) (s : State) : Host.Outcome State Fault Refusal :=
  .next (ifIdle (encodeCommand id instr p) s)

/-- HDRFIND's results: `found: u8, h: u16` (R120). -/
def hdrfindData (buf : List Byte) : List Byte :=
  match hdrfind buf with
  | some h => 1 :: natLe16 h
  | none => 0 :: natLe16 0

/-- HDRFIND (R120); refused when the operand is longer than `CAP`: BufferTooLong (R230). -/
def execHdrfind (buf : List Byte) (s : State) : Host.Outcome State Fault Refusal :=
  .next (ifIdle (fun s =>
    if buf.length ≤ s.cfg.cap then present .success (hdrfindData buf) s else refuse s) s)

/-- DESTUFF (R123): result `d: bytes`. -/
def execDestuff (r : List Byte) (s : State) : Host.Outcome State Fault Refusal :=
  .next (ifIdle (present .success (blob (destuff r))) s)

/-- The frame fields among DECODE's results: `id, instr, content, crc_calc, crc_wire`. -/
def fieldsData (f : Fields) : List Byte :=
  [f.id, f.instr] ++ blob f.content ++ le16 f.crcCalc ++ le16 f.crcWire

/-- DECODE's results: `dout`, `keep`, and the frame's fields where the outcome has them (R126,
R128: "no other fields"; log 11). -/
def decodeData (r : DecodeResult) : List Byte :=
  match r with
  | .headerNotFound keep => r.number :: natLe16 keep
  | .incomplete keep => r.number :: natLe16 keep
  | .malformed keep => r.number :: natLe16 keep
  | .checksumMismatch f => r.number :: (natLe16 f.keep ++ fieldsData f)
  | .success f => r.number :: (natLe16 f.keep ++ fieldsData f)

/-- DECODE (R126); refused when the operand is longer than `CAP`: BufferTooLong (R230). -/
def execDecode (buf : List Byte) (s : State) : Host.Outcome State Fault Refusal :=
  .next (ifIdle (fun s =>
    if buf.length ≤ s.cfg.cap then present .success (decodeData (decodeFrameBytes buf)) s
    else refuse s) s)

end Sys2Proof.Machine
end

