-- ==== Sys2Proof/Machine/Flags.lean ====
section
/-!
DEFINITION. The flags of an exchange, `HDRSEEN` and `RSTATE` (10_state R17, R18). No operation of the
block computes an arithmetic condition code (R19).
-/

namespace Sys2Proof.Machine

/-- Both flags at the start of an exchange (43_session_exchange R148 step 2). -/
def clearFlags (s : State) : State := { s with flags := { hdrSeen := false, rstate := .seeking } }

/-- After a DECODE that found no header: `RSTATE <- Seeking`; `HDRSEEN` is sticky (R148 step 7d). -/
def noteSeeking (s : State) : State := { s with flags := { s.flags with rstate := .seeking } }

/-- After an Incomplete DECODE: `HDRSEEN <- 1`, `RSTATE <- PartialFrame` (R148 step 7d). -/
def notePartial (s : State) : State := { s with flags := { hdrSeen := true, rstate := .partialFrame } }

/-- The outcome of an exchange whose line went quiet: IncompleteData when a header was located, else
NoResponse (R148 step 8, R155). -/
def quietOutcome (f : FlagRegs) : Code := if f.hdrSeen then .incompleteData else .noResponse

end Sys2Proof.Machine
end

