-- ==== Sys2Proof/Machine/Transport.lean ====
section
/-!
DEFINITION. The six transport calls (20_memory R46 to R51), answered by the channel's plan (R52,
95_test_vectors 3.1; log 3). Every call but `T.configure` and `T.set_baud` lets the time of one `lag`
entry pass before it answers, so that bytes can arrive between any two calls.
-/

namespace Sys2Proof.Machine

/-- What arrives within `t` microseconds: the bytes of every chunk whose time has come, in order, and
what is still to arrive. -/
def arrive : Nat → List Chunk → List Byte × List Chunk
  | _, [] => ([], [])
  | t, c :: cs =>
    if c.gap ≤ t then (c.bytes ++ (arrive (t - c.gap) cs).1, (arrive (t - c.gap) cs).2)
    else ([], { c with gap := c.gap - t } :: cs)

/-- The time before a call passes. -/
def Transport.tick (l : Transport) : Transport :=
  match l.lag with
  | [] => l
  | t :: lag =>
    { l with avail := l.avail ++ (arrive t l.future).1, future := (arrive t l.future).2, lag := lag }

/-- `T.ready_now()` (R49): a received byte can be taken without waiting. -/
def Transport.readyNow (l : Transport) : Bool × Transport :=
  (!l.tick.avail.isEmpty, l.tick)

/-- Wait on an empty channel for at most `t` microseconds (R50; 95_test_vectors 3.1). -/
def Transport.await (t : Nat) (l : Transport) : Bool × Transport :=
  match l.future with
  | c :: cs =>
    if c.gap ≤ t then (true, { l with avail := c.bytes, future := cs })
    else (false, { l with future := { c with gap := c.gap - t } :: cs })
  | [] =>
    match l.babble with
    | [] => (false, l)
    | b :: bs => (true, { l with avail := [b], babble := bs ++ [b] })

/-- `T.ready_within(t)` (R50): true at once when a byte is available, else wait. -/
def Transport.readyWithin (t : Word40) (l : Transport) : Bool × Transport :=
  if l.tick.avail.isEmpty then l.tick.await t.toNat else (true, l.tick)

/-- Take the oldest pending byte, unless the plan has the call answer none all the same. Then what is pending
stays so, or is on its way again. No byte is lost: R52 (a). -/
def Transport.take (l : Transport) : Option Byte × Transport :=
  match l.avail with
  | [] => (none, l)
  | b :: bs =>
    match l.balk with
    | .gives :: balk => (some b, { l with avail := bs, balk := balk })
    | .stays :: balk => (none, { l with balk := balk })
    | .withdraws gap :: balk =>
      (none, { l with avail := [], future := ⟨gap, b :: bs⟩ :: l.future, balk := balk })
    | [] => (some b, { l with avail := bs })

/-- `T.read_one()` (R51). -/
def Transport.readOne (l : Transport) : Option Byte × Transport := l.tick.take

/-- Hand a frame to the channel and get the plan's answer. -/
def Transport.emit (frame : List Byte) (l : Transport) : Bool × Transport :=
  match l.replies with
  | [] => (true, { l with sent := l.sent ++ [frame] })
  | r :: rs =>
    if r.ok then
      (true, { l with sent := l.sent ++ [frame], replies := rs, future := l.future ++ r.chunks })
    else (false, { l with sent := l.sent ++ [frame], replies := rs })

/-- `T.send(bytes)` (R48). -/
def Transport.send (frame : List Byte) (l : Transport) : Bool × Transport := l.tick.emit frame

/-- `T.configure(baud, bits, stop, parity) -> actual_baud` (R46): taken never to fail (U19). -/
def Transport.configure (baud : Word32) (bits stop parity : Byte) (l : Transport) :
    Word32 × Transport :=
  (l.grantedBaud, { l with baud := baud, bits := bits, stop := stop, parity := parity })

/-- `T.set_baud(baud)` (R47): no result, taken never to fail (10_state R25). -/
def Transport.setBaud (baud : Word32) (l : Transport) : Transport := { l with baud := baud }

/-- A device puts bytes on the line: they join the pending input (10_state R24). -/
def Transport.deliver (bytes : List Byte) (l : Transport) : Transport :=
  { l with avail := l.avail ++ bytes }

/-- How many bytes, chunks and answers to reads the plan holds: what the passes of an exchange can use
up before only `babble` is left. An answer counts twice, since it can make one more chunk. -/
def Transport.stock (l : Transport) : Nat :=
  l.avail.length + (l.future.map (fun c => c.bytes.length + 1)).sum + 2 * l.balk.length

end Sys2Proof.Machine
end

