-- ==== Sys2Proof/Machine/Exchange.lean ====
section
/-!
DEFINITION. One exchange (43_session_exchange) and the Retry/Timeout Policy (44_retry_policy), as
shared operations of every command and call that talks to a device.
-/

namespace Sys2Proof.Machine

/-! ## The transport calls as steps of the block -/

/-- `T.ready_now()`. -/
def readyNow (s : State) : Bool × State := (s.line.readyNow.1, { s with line := s.line.readyNow.2 })

/-- `T.ready_within(WAIT_EFF)`. -/
def readyWithin (s : State) : Bool × State :=
  ((s.line.readyWithin s.req.wait).1, { s with line := (s.line.readyWithin s.req.wait).2 })

/-- `T.read_one()`. -/
def readOne (s : State) : Option Byte × State := (s.line.readOne.1, { s with line := s.line.readOne.2 })

/-- `T.send(TXBUF[0..TXLEN))`. -/
def sendFrame (s : State) : Bool × State :=
  ((s.line.send s.txBytes).1, { s with line := (s.line.send s.txBytes).2 })

/-! ## Preconditions (R148 step 1, 60_exceptions R230) -/

/-- XCHG and XCHGR are accepted: Idle, initialised, and the frame fits. -/
def accepts (p : List Byte) (s : State) : Bool :=
  s.xstate = .idle ∧ s.cfg.ready = true ∧ frameFits s.params.txCap p = true

/-! ## Starting an exchange (R148 steps 2 to 4) -/

/-- The response registers at the start of an exchange (step 2). -/
def clearResp (s : State) : State :=
  { s with resp := { outcome := .none, valid := false, id := 0, instr := 0, err := 0, params := [],
                     crcCalc := 0, crcWire := 0 } }

/-- The request latches (step 3). -/
def latchRequest (id instr : Byte) (p : List Byte) (wait : Word40) (s : State) : State :=
  { s with req := { id := id, instr := instr, payload := p, wait := wait } }

/-- Steps 2 to 4: clear, latch, encode. -/
def beginExchange (id instr : Byte) (p : List Byte) (wait : Word40) (s : State) : State :=
  encodeInto id instr p (latchRequest id instr p wait (clearFlags (clearRx (clearResp s))))

/-! ## REFILL (R142) -/

/-- REFILL with `k` bytes of its quota left: stop on quota, full, dry, or none, in this order. -/
def refillUpTo : Nat → State → State
  | 0, s => s
  | k + 1, s =>
    if s.rx.len = s.cfg.cap then s
    else if (readyNow s).1 then
      match readOne (readyNow s).2 with
      | (none, t) => t
      | (some b, t) => refillUpTo k (appendRx b t)
    else (readyNow s).2

/-- `REFILL()`. -/
def refill (s : State) : State := refillUpTo (quota s.cfg.cap) s

/-- The overflow test (R144): `T.ready_now` is asked only when the buffer is full. -/
def overflowTest (s : State) : Bool × State :=
  if s.rx.len = s.cfg.cap then readyNow s else (false, s)

/-! ## LATCH and CLASSIFY (R152, R154) -/

/-- `LATCH(f)`. -/
def latch (f : Fields) (s : State) : State :=
  { s with resp := { s.resp with valid := true, id := f.id, instr := f.instr, crcCalc := f.crcCalc,
                                 crcWire := f.crcWire, err := errOf f.content,
                                 params := paramsOf f.content } }

/-- The outcome `CLASSIFY(f)` raises, in the order of R154: empty content (R153 (b)), error byte,
identifier. -/
def classify (malformed : Code) (reqId : Byte) (f : Fields) : Code :=
  if f.content = [] then malformed
  else if errOf f.content ≠ 0 then .statusError
  else if f.id ≠ reqId then .wrongId
  else .success

/-! ## The drain loop (R148 step 7) -/

/-- Step 7d: act on the result of DECODE. A terminal arm leaves `XSTATE` Idle. -/
def actOn (r : DecodeResult) (s : State) : State :=
  match r with
  | .headerNotFound keep => noteSeeking (compact keep s)
  | .incomplete keep => notePartial (compact keep s)
  | .malformed _ => raiseOutcome s.params.malformed s
  | .checksumMismatch f => raiseOutcome .wrongChecksum (latch f s)
  | .success f => raiseOutcome (classify s.params.malformed s.req.id f) (latch f s)

/-- `XSTATE <- Draining` at the start of a pass. -/
def enterDraining (s : State) : State := { s with xstate := .draining }

/-- One pass, steps 7 to 7d. The exchange has ended when `XSTATE` is Idle afterwards. -/
def drainPass (s : State) : State :=
  match overflowTest (refill (enterDraining s)) with
  | (true, t) => raiseOutcome .oversizedData t
  | (false, t) => actOn (decodeFrameBytes t.rxBytes) t

/-- Step 7e: ready now, else ready within the wait. -/
def moreAfterPass (s : State) : Bool × State :=
  if (readyNow s).1 then (true, (readyNow s).2) else readyWithin (readyNow s).2

/-- Step 8: the line went quiet. -/
def endQuiet (s : State) : State := raiseOutcome (quietOutcome s.flags) s

/-- The drain loop, entered with `more` true. The number bounds the passes: none means that the
exchange is still Draining after that many. -/
def drain : Nat → State → Option State
  | 0, _ => none
  | n + 1, s =>
    if (drainPass s).xstate = .idle then some (drainPass s)
    else
      match moreAfterPass (drainPass s) with
      | (true, t) => drain n t
      | (false, t) => some (endQuiet t)

/-- A number of passes no exchange that ends can exceed: each pass uses up a byte, a chunk or a
refused read of the plan; once only the endlessly repeated bytes are left, a header shows within one
round and three bytes more, and after it the buffer fills (R157, R263). -/
def passBound (s : State) : Nat :=
  s.line.stock + 2 * s.line.babble.length + s.cfg.cap + 10

/-- Steps 6 to 8, after a successful send. -/
def receive (s : State) : Option State :=
  match readyWithin s with
  | (true, t) => drain (passBound t) t
  | (false, t) => some (endQuiet t)

/-- `XSTATE <- Sent` (step 5). -/
def enterSent (s : State) : State := { s with xstate := .sent }

/-- Steps 2 to 8 of XCHG: one exchange, accepted already. None: it never ends (R157, U14). -/
def exchange (id instr : Byte) (p : List Byte) (wait : Word40) (s : State) : Option State :=
  match sendFrame (beginExchange id instr p wait s) with
  | (true, t) => receive (enterSent t)
  | (false, t) => some (raiseOutcome Config.sendFailOutcome t)

/-! ## The commands -/

/-- Complete an exchange command: the result code is `OUTCOME`, the operands the registers (R74). -/
def presentOutcome (s : State) : State := present s.resp.outcome (respData s) s

/-- `ATTEMPT <- v`. -/
def setAttempt (v : Byte) (s : State) : State := { s with policy := { s.policy with attempt := v } }

/-- The command XCHG (R147, R148): a bare exchange, `ATTEMPT <- 1`. -/
def runXchg (id instr : Byte) (p : List Byte) (wait : Word40) (s : State) : Option State :=
  if accepts p s then (exchange id instr p wait (setAttempt 1 s)).map presentOutcome
  else some (refuse s)

/-- The loop of XCHGR (44_retry_policy R174) with at most `n` attempts left. -/
def attempts (id instr : Byte) (p : List Byte) (wait : Word40) : Nat → State → Option State
  | 0, s => some s
  | n + 1, s =>
    match exchange id instr p wait (setAttempt (s.policy.attempt + 1) s) with
    | none => none
    | some t =>
      if t.resp.outcome = .success then some t
      else if t.policy.attempt.setWidth 9 = t.policy.iterLimit then some t
      else attempts id instr p wait n t

/-- `ITER_LIMIT <- ITERS(iters)`, `ATTEMPT <- 0` (R174). -/
def startPolicy (iters : Byte) (s : State) : State :=
  { s with policy := { attempt := 0, iterLimit := itersOf iters } }

/-- The command XCHGR (R174). -/
def runXchgr (id instr : Byte) (p : List Byte) (mult iters : Byte) (s : State) : Option State :=
  if accepts p s then
    (attempts id instr p (waitEff s.cfg.waitUs mult) (itersOf iters).toNat
      (startPolicy iters s)).map presentOutcome
  else some (refuse s)

/-- An operation that may never end, as an outcome of the step. -/
def orNeverEnds : Option State → Host.Outcome State Fault Refusal
  | some s => .next s
  | none => .fault .exchangeNeverEnds

end Sys2Proof.Machine
end

