-- ==== Sys2Proof/Machine/Session.lean ====
section
/-!
DEFINITION. Meanings of the session commands: XCHG (43_session_exchange R148), XCHGR (44_retry_policy
R174), INIT (45_device_ops R187) and SETBAUD (R188).
-/

namespace Sys2Proof.Machine

/-- XCHG (R147, R148). -/
def execXchg (id instr : Byte) (p : List Byte) (wait : Word40) (s : State) :
    Host.Outcome State Fault Refusal :=
  orNeverEnds (runXchg id instr p wait s)

/-- XCHGR (R174). -/
def execXchgr (id instr : Byte) (p : List Byte) (mult iters : Byte) (s : State) :
    Host.Outcome State Fault Refusal :=
  orNeverEnds (runXchgr id instr p mult iters s)

/-- INIT's writes of the configuration registers: the capacity is raised to the floor (R187, D8),
`CFG_ACTUAL_BAUD` is what `T.configure` returned (R46, R257). -/
def configureSession (cap : Word16) (waitUs baud : Word32) (bits stop parity : Byte) (s : State) :
    State :=
  { s with
    cfg := { cap := max cap.toNat s.params.capMin, waitUs := waitUs, baud := baud,
             actualBaud := (s.line.configure baud bits stop parity).1, ready := true }
    line := (s.line.configure baud bits stop parity).2 }

/-- `TXLEN <- 0` (R187); the bytes of `TXBUF` stay. -/
def clearTxLen (s : State) : State := { s with tx := { s.tx with len := 0 } }

/-- INIT's effect (R187): AlreadyInitialised is refused; a claimed transport is a construction
failure and changes no state (70_reset_and_hazards R256). The registry's answer is the same for every INIT
of a run (log 32). -/
def initCommand (cap : Word16) (waitUs baud : Word32) (bits stop parity : Byte) (s : State) :
    State :=
  if s.cfg.ready then refuse s
  else if s.line.claimed then present .constructionFailure [] s
  else
    present .success []
      (clearTxLen (clearRx (configureSession cap waitUs baud bits stop parity s)))

/-- INIT (R187). -/
def execInit (cap : Word16) (waitUs baud : Word32) (bits stop parity : Byte) (s : State) :
    Host.Outcome State Fault Refusal :=
  .next (ifIdle (initCommand cap waitUs baud bits stop parity) s)

/-- SETBAUD's effect (R188): refused before INIT and when Busy; else `T.set_baud(baud)` and
`CFG_BAUD <- baud`. -/
def setbaudCommand (baud : Word32) (s : State) : State :=
  if s.xstate = .idle ∧ s.cfg.ready = true then
    present .success []
      { s with cfg := { s.cfg with baud := baud }, line := s.line.setBaud baud }
  else refuse s

/-- SETBAUD (R188). -/
def execSetbaud (baud : Word32) (s : State) : Host.Outcome State Fault Refusal :=
  .next (setbaudCommand baud s)

end Sys2Proof.Machine
end

