-- ==== Sys2Proof/Machine/Device.lean ====
section
/-!
DEFINITION. The Device Operation Layer's calls (45_device_ops R189 to R195) and the shared operations
under the typed accessors: issue the exchange, then post-process on the host's side.
-/

namespace Sys2Proof.Machine

open Config

/-- Issue a call's command: XCHGR, or in the single-shot form XCHG with `wait = WAITEFF(m)` (R84,
44_retry_policy R178). -/
def issueCall (f : Form) (id code : Byte) (payload : List Byte) (m n : Byte) (s : State) :
    Option State :=
  match f with
  | .retried => runXchgr id code payload m n s
  | .single => runXchg id code payload (waitEff s.cfg.waitUs m) s

/-- A call without post-processing: its outcome is the command's result (R189, R191). -/
def finishPlain (t : State) : State := reply t.result.code .none t

/-- A READ's post-processing: a Success whose parameter length is not the requested one is
WrongParameter; `OUTCOME` stays (R192). -/
def finishRead (len : Word16) (value : List Byte → Value) (t : State) : State :=
  if t.result.code = .success then
    if t.respPlen ≠ len.toNat then reply .wrongParameter .none t
    else reply .success (value t.resp.params) t
  else reply t.result.code .none t

/-- A call that only exchanges. -/
def plainCall (f : Form) (id code : Byte) (payload : List Byte) (m n : Byte) (s : State) :
    Option State :=
  (issueCall f id code payload m n s).map finishPlain

/-- `READ(id, addr, len, m, n)` with a decoding of the value (R190). -/
def readCall (f : Form) (id : Byte) (addr len : Word16) (value : List Byte → Value) (m n : Byte)
    (s : State) : Option State :=
  (issueCall f id s.params.codes.read (readPayload addr len) m n s).map (finishRead len value)

/-- `WRITE(id, addr, data, m, n)` (R191). -/
def writeCall (f : Form) (id : Byte) (addr : Word16) (data : List Byte) (m n : Byte) (s : State) :
    Option State :=
  plainCall f id s.params.codes.write (writePayload addr data) m n s

/-- `PING(id, m, n)` (R189). -/
def pingCall (f : Form) (id m n : Byte) (s : State) : Option State :=
  plainCall f id s.params.codes.ping [] m n s

/-- PING (R189). -/
def execPing (f : Form) (id m n : Byte) (s : State) : Host.Outcome State Fault Refusal :=
  orNeverEnds (pingCall f id m n s)

/-- READ (R190, R192): the value is `RESP_PARAMS[0..len)`. -/
def execRead (f : Form) (id : Byte) (addr len : Word16) (m n : Byte) (s : State) :
    Host.Outcome State Fault Refusal :=
  orNeverEnds (readCall f id addr len .bytes m n s)

/-- WRITE (R191). -/
def execWrite (f : Form) (id : Byte) (addr : Word16) (data : List Byte) (m n : Byte) (s : State) :
    Host.Outcome State Fault Refusal :=
  orNeverEnds (writeCall f id addr data m n s)

/-- REGWRITE (R193). -/
def execRegwrite (f : Form) (id : Byte) (addr : Word16) (data : List Byte) (m n : Byte)
    (s : State) : Host.Outcome State Fault Refusal :=
  orNeverEnds (plainCall f id s.params.codes.regWrite (writePayload addr data) m n s)

/-- ACTION (R194). -/
def execAction (f : Form) (id m n : Byte) (s : State) : Host.Outcome State Fault Refusal :=
  orNeverEnds (plainCall f id s.params.codes.action [] m n s)

/-- FRESET (R195). -/
def execFreset (f : Form) (id mode m n : Byte) (s : State) : Host.Outcome State Fault Refusal :=
  orNeverEnds (plainCall f id s.params.codes.factoryReset [mode] m n s)

/-- REBOOT (R195). -/
def execReboot (f : Form) (id m n : Byte) (s : State) : Host.Outcome State Fault Refusal :=
  orNeverEnds (plainCall f id s.params.codes.reboot [] m n s)

end Sys2Proof.Machine
end

