-- ==== Sys2Proof/Machine/Accessors.lean ====
section
/-!
DEFINITION. The typed accessors (45_device_ops R197 to R208): a READ or a WRITE at the quantity's row
of the Register Address Map (R196) with the decoding or encoding of its rule.
`getCall` and `setCall` are the two over every quantity of the map.
-/

namespace Sys2Proof.Machine

open Config

/-- `GET_q(id, m, n)`: a READ at the quantity's row and the quantity's decoding (R84, R196 to R207). -/
def getCall (f : Form) (q : Quantity) (id m n : Byte) (s : State) : Option State :=
  readCall f id (s.params.regmap.row q).addr (widthLen (s.params.regmap.row q).width)
    (decodeQuantity s.params q) m n s

/-- `SET_q(id, v, m, n)`: a WRITE at the quantity's row of what encodes the value (R84, R196 to R207). A
value that has no encoding is not issued: the outcome is Refused and nothing else changes (log 34; U9,
log 14). -/
def setCall (f : Form) (q : Quantity) (id : Byte) (v : Value) (m n : Byte) (s : State) :
    Option State :=
  match encodeQuantity s.params q v with
  | some data => writeCall f id (s.params.regmap.row q).addr data m n s
  | none => some (reply .refused .none s)

/-- An accessor over any quantity of the map (R84). -/
def accessCall (a : Accessor) (s : State) : Option State :=
  match a with
  | .get f q id m n => getCall f q id m n s
  | .set f q id v m n => setCall f q id v m n s

/-- What an accessor request does (R84; log 34). -/
def execAccess (a : Accessor) (s : State) : Host.Outcome State Fault Refusal :=
  orNeverEnds (accessCall a s)

/-! ## The accessors of the opcode table -/

/-- GET_torque_enable (R203). -/
def execGetTorqueEnable (f : Form) (id m n : Byte) (s : State) : Host.Outcome State Fault Refusal :=
  orNeverEnds (getCall f .torqueEnable id m n s)

/-- `SET_torque_enable(id, on)` (R203). -/
def setTorqueCall (f : Form) (id : Byte) (on : Bool) (m n : Byte) (s : State) : Option State :=
  writeCall f id s.params.regmap.torqueEnable.addr [torqueByte on] m n s

/-- SET_torque_enable (R203). -/
def execSetTorqueEnable (f : Form) (id : Byte) (on : Bool) (m n : Byte) (s : State) :
    Host.Outcome State Fault Refusal :=
  orNeverEnds (setTorqueCall f id on m n s)

/-- GET_position (R199). -/
def execGetPosition (f : Form) (id m n : Byte) (s : State) : Host.Outcome State Fault Refusal :=
  orNeverEnds (getCall f .presentPosition id m n s)

/-- GET_velocity (R200): of the two addresses R196 gives, the present one: DESIGN CHOICE, log 36. -/
def execGetVelocity (f : Form) (id m n : Byte) (s : State) : Host.Outcome State Fault Refusal :=
  orNeverEnds (getCall f .presentVelocity id m n s)

/-- GET_current (R201): of the two addresses R196 gives, the present one: DESIGN CHOICE, log 36. -/
def execGetCurrent (f : Form) (id m n : Byte) (s : State) : Host.Outcome State Fault Refusal :=
  orNeverEnds (getCall f .presentCurrent id m n s)

/-- GET_temperature (R205). -/
def execGetTemperature (f : Form) (id m n : Byte) (s : State) : Host.Outcome State Fault Refusal :=
  orNeverEnds (getCall f .temperature id m n s)

/-- GET_delay_time (R204). -/
def execGetDelayTime (f : Form) (id m n : Byte) (s : State) : Host.Outcome State Fault Refusal :=
  orNeverEnds (getCall f .delayTime id m n s)

/-- `SET_delay_time(id, us)` (R204). Where the byte does not fit and the parameter says refuse, the
call is not issued: the outcome is Refused and nothing else changes (U9; log 14). -/
def setDelayCall (f : Form) (id : Byte) (us : Nat) (m n : Byte) (s : State) : Option State :=
  match delayByte s.params us with
  | some b => writeCall f id s.params.regmap.delayTime.addr [b] m n s
  | none => some (reply .refused .none s)

/-- SET_delay_time (R204). -/
def execSetDelayTime (f : Form) (id : Byte) (us : Nat) (m n : Byte) (s : State) :
    Host.Outcome State Fault Refusal :=
  orNeverEnds (setDelayCall f id us m n s)

/-- GET_drive_mode (R198). -/
def execGetDriveMode (f : Form) (id m n : Byte) (s : State) : Host.Outcome State Fault Refusal :=
  orNeverEnds (getCall f .driveMode id m n s)

/-- GET_operating_mode (R206). -/
def execGetOperatingMode (f : Form) (id m n : Byte) (s : State) : Host.Outcome State Fault Refusal :=
  orNeverEnds (getCall f .operatingMode id m n s)

/-- `SET_operating_mode(id, code)` (R206). -/
def setOpmodeCall (f : Form) (id code m n : Byte) (s : State) : Option State :=
  writeCall f id s.params.regmap.operatingMode.addr [code] m n s

/-- SET_operating_mode (R206). -/
def execSetOperatingMode (f : Form) (id code m n : Byte) (s : State) :
    Host.Outcome State Fault Refusal :=
  orNeverEnds (setOpmodeCall f id code m n s)

/-- GET_baud_rate (R207): the code, not the rate. -/
def execGetBaudRate (f : Form) (id m n : Byte) (s : State) : Host.Outcome State Fault Refusal :=
  orNeverEnds (getCall f .baudRate id m n s)

/-- `SET_baud_rate(id, code)` (R207): the device's rate, not the transport's. -/
def setBaudRateCall (f : Form) (id code m n : Byte) (s : State) : Option State :=
  writeCall f id s.params.regmap.baudRate.addr [code] m n s

/-- SET_baud_rate (R207). -/
def execSetBaudRate (f : Form) (id code m n : Byte) (s : State) :
    Host.Outcome State Fault Refusal :=
  orNeverEnds (setBaudRateCall f id code m n s)

end Sys2Proof.Machine
end

