-- ==== Sys2Proof/Machine/Configure.lean ====
section
/-!
DEFINITION. The composite CONFIGURE (45_device_ops R209 to R211).
-/

namespace Sys2Proof.Machine

/-- The ping sweep (R211): set each candidate rate, ping, stop at the first Success. The device
outcome is the last ping's. -/
def sweep (f : Form) (id : Byte) : List Word32 → State → Option State
  | [], s => some s
  | c :: cs, s =>
    match pingCall f id 0 0 (setbaudCommand c s) with
    | none => none
    | some t => if t.device.code = .success then some t else sweep f id cs t

/-- Go on with the next step, or abort with the failure (R211). -/
def thenStep (o : Option State) (k : State → Option State) : Option State :=
  match o with
  | none => none
  | some t => if t.device.code = .success then k t else some t

/-- The steps after a successful sweep (R211). -/
def configureSteps (f : Form) (id : Byte) (targetBaud : Word32) (delayUs : Nat) (opmode : Byte)
    (s : State) : Option State :=
  thenStep (setTorqueCall f id false 0 0 s) fun t =>
  thenStep (setBaudRateCall f id (baudCodeOf t.params targetBaud) 0 0 t) fun t =>
  thenStep (setDelayCall f id delayUs 0 0 (setbaudCommand targetBaud t)) fun t =>
  setOpmodeCall f id opmode 0 0 t

/-- `CONFIGURE(id, target_baud, delay_us, opmode)` (R211): a failed sweep restores the rate. -/
def configureCall (f : Form) (id : Byte) (targetBaud : Word32) (delayUs : Nat) (opmode : Byte)
    (s : State) : Option State :=
  match sweep f id s.params.baudCandidates (reply .noResponse .none s) with
  | none => none
  | some t =>
    if t.device.code = .success then configureSteps f id targetBaud delayUs opmode t
    else some (setbaudCommand s.cfg.baud t)

/-- CONFIGURE (R211). -/
def execConfigure (f : Form) (id : Byte) (targetBaud : Word32) (delayUs : Nat) (opmode : Byte)
    (s : State) : Host.Outcome State Fault Refusal :=
  orNeverEnds (configureCall f id targetBaud delayUs opmode s)

end Sys2Proof.Machine
end

