-- ==== Sys2Proof/Machine/Wire.lean ====
section
/-!
DEFINITION. Meanings of the wire instructions (30_encoding R60, R63, R68, R81; log 9). An instruction
frame is built by the block in `TXBUF`; a status frame comes from a device and joins the pending input.
-/

namespace Sys2Proof.Machine

/-- W.PING (R189): the ping instruction frame. -/
def execWPing (id : Byte) (s : State) : Host.Outcome State Fault Refusal :=
  .next (ifIdle (encodeCommand id s.params.codes.ping []) s)

/-- W.READ (R190): the read instruction frame. -/
def execWRead (id : Byte) (addr len : Word16) (s : State) : Host.Outcome State Fault Refusal :=
  .next (ifIdle (encodeCommand id s.params.codes.read (readPayload addr len)) s)

/-- W.WRITE (R191): the write instruction frame. -/
def execWWrite (id : Byte) (addr : Word16) (data : List Byte) (s : State) :
    Host.Outcome State Fault Refusal :=
  .next (ifIdle (encodeCommand id s.params.codes.write (writePayload addr data)) s)

/-- W.REG_WRITE (R193): the register-write instruction frame. -/
def execWRegWrite (id : Byte) (addr : Word16) (data : List Byte) (s : State) :
    Host.Outcome State Fault Refusal :=
  .next (ifIdle (encodeCommand id s.params.codes.regWrite (writePayload addr data)) s)

/-- W.ACTION (R194): the action instruction frame. -/
def execWAction (id : Byte) (s : State) : Host.Outcome State Fault Refusal :=
  .next (ifIdle (encodeCommand id s.params.codes.action []) s)

/-- W.FACTORY_RESET (R195): the factory-reset instruction frame. -/
def execWFactoryReset (id mode : Byte) (s : State) : Host.Outcome State Fault Refusal :=
  .next (ifIdle (encodeCommand id s.params.codes.factoryReset [mode]) s)

/-- W.REBOOT (R195): the reboot instruction frame. -/
def execWReboot (id : Byte) (s : State) : Host.Outcome State Fault Refusal :=
  .next (ifIdle (encodeCommand id s.params.codes.reboot []) s)

/-- A status frame of a device comes down the line (R63, 10_state R24). A payload too long for the
length field has no frame (R62). -/
def deliverStatus (id err : Byte) (params : List Byte) (s : State) : State :=
  if payloadFits (err :: params) then
    { s with line := s.line.deliver (frameOf id s.params.codes.status (err :: params)) }
  else refuse s

/-- W.STATUS (R63): the device's step, which the block cannot refuse as Busy. -/
def execWStatus (id err : Byte) (params : List Byte) (s : State) :
    Host.Outcome State Fault Refusal :=
  .next (deliverStatus id err params s)

end Sys2Proof.Machine
end

