-- ==== Sys2Proof/Machine/Dispatch.lean ====
section
/-!
DEFINITION. One arm per instruction: the row of spec/opcode_table.json and the meaning it has.
-/

namespace Sys2Proof.Machine

def exec (i : Instr) (s : State) : Host.Outcome State Fault Refusal :=
  match i with
  | .crc16 data => Sys2Proof.Machine.execCrc16 data s
  | .le16 v => Sys2Proof.Machine.execLe16 v s
  | .le32 v => Sys2Proof.Machine.execLe32 v s
  | .u16 b => Sys2Proof.Machine.execU16 b s
  | .u32 b => Sys2Proof.Machine.execU32 b s
  | .s16 b => Sys2Proof.Machine.execS16 b s
  | .s32 b => Sys2Proof.Machine.execS32 b s
  | .stuff p => Sys2Proof.Machine.execStuff p s
  | .encode id instr p => Sys2Proof.Machine.execEncode id instr p s
  | .hdrfind buf => Sys2Proof.Machine.execHdrfind buf s
  | .destuff r => Sys2Proof.Machine.execDestuff r s
  | .decode buf => Sys2Proof.Machine.execDecode buf s
  | .xchg id instr p wait => Sys2Proof.Machine.execXchg id instr p wait s
  | .xchgr id instr p mult iters => Sys2Proof.Machine.execXchgr id instr p mult iters s
  | .init cap waitUs baud bits stop parity => Sys2Proof.Machine.execInit cap waitUs baud bits stop parity s
  | .setbaud baud => Sys2Proof.Machine.execSetbaud baud s
  | .wPing id => Sys2Proof.Machine.execWPing id s
  | .wRead id addr len => Sys2Proof.Machine.execWRead id addr len s
  | .wWrite id addr data => Sys2Proof.Machine.execWWrite id addr data s
  | .wRegWrite id addr data => Sys2Proof.Machine.execWRegWrite id addr data s
  | .wAction id => Sys2Proof.Machine.execWAction id s
  | .wFactoryReset id mode => Sys2Proof.Machine.execWFactoryReset id mode s
  | .wReboot id => Sys2Proof.Machine.execWReboot id s
  | .wStatus id err params => Sys2Proof.Machine.execWStatus id err params s
  | .ping f id m n => Sys2Proof.Machine.execPing f id m n s
  | .read f id addr len m n => Sys2Proof.Machine.execRead f id addr len m n s
  | .write f id addr data m n => Sys2Proof.Machine.execWrite f id addr data m n s
  | .regwrite f id addr data m n => Sys2Proof.Machine.execRegwrite f id addr data m n s
  | .action f id m n => Sys2Proof.Machine.execAction f id m n s
  | .freset f id mode m n => Sys2Proof.Machine.execFreset f id mode m n s
  | .reboot f id m n => Sys2Proof.Machine.execReboot f id m n s
  | .getTorqueEnable f id m n => Sys2Proof.Machine.execGetTorqueEnable f id m n s
  | .setTorqueEnable f id on m n => Sys2Proof.Machine.execSetTorqueEnable f id on m n s
  | .getPosition f id m n => Sys2Proof.Machine.execGetPosition f id m n s
  | .getVelocity f id m n => Sys2Proof.Machine.execGetVelocity f id m n s
  | .getCurrent f id m n => Sys2Proof.Machine.execGetCurrent f id m n s
  | .getTemperature f id m n => Sys2Proof.Machine.execGetTemperature f id m n s
  | .getDelayTime f id m n => Sys2Proof.Machine.execGetDelayTime f id m n s
  | .setDelayTime f id us m n => Sys2Proof.Machine.execSetDelayTime f id us m n s
  | .getDriveMode f id m n => Sys2Proof.Machine.execGetDriveMode f id m n s
  | .getOperatingMode f id m n => Sys2Proof.Machine.execGetOperatingMode f id m n s
  | .setOperatingMode f id code m n => Sys2Proof.Machine.execSetOperatingMode f id code m n s
  | .getBaudRate f id m n => Sys2Proof.Machine.execGetBaudRate f id m n s
  | .setBaudRate f id code m n => Sys2Proof.Machine.execSetBaudRate f id code m n s
  | .configure f id targetBaud delayUs opmode => Sys2Proof.Machine.execConfigure f id targetBaud delayUs opmode s

end Sys2Proof.Machine
end

