-- ==== Sys2Proof/Decode.lean ====
section
/-!
DEFINITION. The two encodings of 30_encoding and their inverses: the command port (R73, R74, R80)
and the wire frames that carry the eight wire instruction codes (R60, R63, R68). Then the expansion
of the device-level calls (R84), and the words the host asks about.
-/

namespace Sys2Proof

open Config

/-! ## The opcode table's match bytes -/

/-- The `match` byte of an instruction's row of spec/opcode_table.json: the command code (R74), the
wire instruction code's default (R68), or the code of XCHGR, into which a device-level call expands
(R84). -/
def Instr.opcode : Instr → Byte
  | .crc16 _ => 0x01
  | .le16 _ => 0x02
  | .le32 _ => 0x03
  | .u16 _ => 0x04
  | .u32 _ => 0x05
  | .s16 _ => 0x06
  | .s32 _ => 0x07
  | .stuff _ => 0x08
  | .encode _ _ _ => 0x09
  | .hdrfind _ => 0x0A
  | .destuff _ => 0x0B
  | .decode _ => 0x0C
  | .xchg _ _ _ _ => 0x10
  | .xchgr _ _ _ _ _ => 0x11
  | .init _ _ _ _ _ _ => 0x20
  | .setbaud _ => 0x21
  | .wPing _ => 0x01
  | .wRead _ _ _ => 0x02
  | .wWrite _ _ _ => 0x03
  | .wRegWrite _ _ _ => 0x04
  | .wAction _ => 0x05
  | .wFactoryReset _ _ => 0x06
  | .wReboot _ => 0x08
  | .wStatus _ _ _ => 0x55
  | .ping _ _ _ _ => 0x11
  | .read _ _ _ _ _ _ => 0x11
  | .write _ _ _ _ _ _ => 0x11
  | .regwrite _ _ _ _ _ _ => 0x11
  | .action _ _ _ _ => 0x11
  | .freset _ _ _ _ _ => 0x11
  | .reboot _ _ _ _ => 0x11
  | .getTorqueEnable _ _ _ _ => 0x11
  | .setTorqueEnable _ _ _ _ _ => 0x11
  | .getPosition _ _ _ _ => 0x11
  | .getVelocity _ _ _ _ => 0x11
  | .getCurrent _ _ _ _ => 0x11
  | .getTemperature _ _ _ _ => 0x11
  | .getDelayTime _ _ _ _ => 0x11
  | .setDelayTime _ _ _ _ _ => 0x11
  | .getDriveMode _ _ _ _ => 0x11
  | .getOperatingMode _ _ _ _ => 0x11
  | .setOperatingMode _ _ _ _ _ => 0x11
  | .getBaudRate _ _ _ _ => 0x11
  | .setBaudRate _ _ _ _ _ => 0x11
  | .configure _ _ _ _ _ => 0x11

/-! ## Command port: decoding (R73, R74) -/

/-- Why a byte string is no command. -/
inductive DecodeError where
  /-- No command code byte at all. -/
  | empty
  /-- The code is not in the table of R74 (R80). -/
  | illegalCommand (code : Byte)
  /-- The operands of the command are not all there. -/
  | truncated (code : Byte)
  /-- Bytes are left after the last operand. -/
  | trailing (code : Byte)
deriving DecidableEq, Repr

/-- The outcome of decoding a byte string: an instruction with the bytes after it, or a rejection by
name. -/
inductive Decoded where
  | ok (i : Instr) (rest : List Byte)
  | reject (e : DecodeError)
deriving DecidableEq, Repr

/-- A u8 operand. -/
def takeU8 : List Byte → Option (Byte × List Byte)
  | b :: r => some (b, r)
  | [] => none

/-- A u16 operand, little-endian. -/
def takeU16 : List Byte → Option (Word16 × List Byte)
  | b0 :: b1 :: r => some (joinU16 b0 b1, r)
  | _ => none

/-- A u32 operand, little-endian. -/
def takeU32 : List Byte → Option (Word32 × List Byte)
  | b0 :: b1 :: b2 :: b3 :: r => some (joinU32 b0 b1 b2 b3, r)
  | _ => none

/-- A u40 operand, little-endian. -/
def takeU40 : List Byte → Option (Word40 × List Byte)
  | b0 :: b1 :: b2 :: b3 :: b4 :: r => some (joinU40 b0 b1 b2 b3 b4, r)
  | _ => none

/-- A byte-list operand: a u16 length, then that many bytes (R73). -/
def takeBlob (bs : List Byte) : Option (List Byte × List Byte) :=
  match takeU16 bs with
  | none => none
  | some (n, r) => if r.length < n.toNat then none else some (r.take n.toNat, r.drop n.toNat)

/-- One byte-list operand. -/
def blobCommand (mk : List Byte → Instr) (bs : List Byte) : Option (Instr × List Byte) :=
  (takeBlob bs).map (fun x => (mk x.1, x.2))

/-- Operands `id: u8, instr: u8, p: bytes` (ENCODE, XCHG, XCHGR). -/
def takeRequest (bs : List Byte) : Option ((Byte × Byte × List Byte) × List Byte) :=
  match bs with
  | id :: ins :: r => (takeBlob r).map (fun x => ((id, ins, x.1), x.2))
  | _ => none

/-- The operands of XCHG (R74). -/
def takeXchg (bs : List Byte) : Option (Instr × List Byte) :=
  match takeRequest bs with
  | none => none
  | some ((id, ins, p), r) => (takeU40 r).map (fun x => (.xchg id ins p x.1, x.2))

/-- The operands of XCHGR (R74). -/
def takeXchgr (bs : List Byte) : Option (Instr × List Byte) :=
  match takeRequest bs with
  | some ((id, ins, p), mult :: iters :: r) => some (.xchgr id ins p mult iters, r)
  | _ => none

/-- The operands of INIT (R74). -/
def takeInit (bs : List Byte) : Option (Instr × List Byte) :=
  match takeU16 bs with
  | none => none
  | some (cap, r) =>
    match takeU32 r with
    | none => none
    | some (waitUs, r) =>
      match takeU32 r with
      | some (baud, bits :: stop :: parity :: r) => some (.init cap waitUs baud bits stop parity, r)
      | _ => none

/-- The operands of the command with this code: none when the code is not in the table of R74,
`some none` when they are not all there. -/
def takeOperands (code : Byte) (bs : List Byte) : Option (Option (Instr × List Byte)) :=
  match code.toNat with
  | 0x01 => some (blobCommand .crc16 bs)
  | 0x02 => some ((takeU16 bs).map (fun x => (.le16 x.1, x.2)))
  | 0x03 => some ((takeU32 bs).map (fun x => (.le32 x.1, x.2)))
  | 0x04 => some (blobCommand .u16 bs)
  | 0x05 => some (blobCommand .u32 bs)
  | 0x06 => some (blobCommand .s16 bs)
  | 0x07 => some (blobCommand .s32 bs)
  | 0x08 => some (blobCommand .stuff bs)
  | 0x09 => some ((takeRequest bs).map (fun x => (.encode x.1.1 x.1.2.1 x.1.2.2, x.2)))
  | 0x0A => some (blobCommand .hdrfind bs)
  | 0x0B => some (blobCommand .destuff bs)
  | 0x0C => some (blobCommand .decode bs)
  | 0x10 => some (takeXchg bs)
  | 0x11 => some (takeXchgr bs)
  | 0x20 => some (takeInit bs)
  | 0x21 => some ((takeU32 bs).map (fun x => (.setbaud x.1, x.2)))
  | _ => none

/-- Decode the command at the front of a byte string. -/
def decodePrefix : List Byte → Decoded
  | [] => .reject .empty
  | code :: bs =>
    match takeOperands code bs with
    | none => .reject (.illegalCommand code)
    | some none => .reject (.truncated code)
    | some (some (i, rest)) => .ok i rest

/-- Decode a whole command: nothing may be left over. -/
def decode (bs : List Byte) : Except DecodeError Instr :=
  match decodePrefix bs with
  | .ok i [] => .ok i
  | .ok _ (_ :: _) => .error (.trailing (bs.headD 0))
  | .reject e => .error e

/-! ## Command port: encoding (R73, R74) -/

/-- The command's words: its code byte and its serialised operands. The wire instructions and the
device-level calls are no commands of the port; see `encodeWire` and `expand`. -/
def encode : Instr → Option (List Byte)
  | .crc16 data => some (0x01 :: blob data)
  | .le16 v => some (0x02 :: le16 v)
  | .le32 v => some (0x03 :: le32 v)
  | .u16 b => some (0x04 :: blob b)
  | .u32 b => some (0x05 :: blob b)
  | .s16 b => some (0x06 :: blob b)
  | .s32 b => some (0x07 :: blob b)
  | .stuff p => some (0x08 :: blob p)
  | .encode id ins p => some (0x09 :: id :: ins :: blob p)
  | .hdrfind buf => some (0x0A :: blob buf)
  | .destuff r => some (0x0B :: blob r)
  | .decode buf => some (0x0C :: blob buf)
  | .xchg id ins p wait => some (0x10 :: id :: ins :: (blob p ++ le40 wait))
  | .xchgr id ins p mult iters => some (0x11 :: id :: ins :: (blob p ++ [mult, iters]))
  | .init cap waitUs baud bits stop parity =>
    some (0x20 :: (le16 cap ++ le32 waitUs ++ le32 baud ++ [bits, stop, parity]))
  | .setbaud baud => some (0x21 :: le32 baud)
  | .wPing _ => none
  | .wRead _ _ _ => none
  | .wWrite _ _ _ => none
  | .wRegWrite _ _ _ => none
  | .wAction _ => none
  | .wFactoryReset _ _ => none
  | .wReboot _ => none
  | .wStatus _ _ _ => none
  | .ping _ _ _ _ => none
  | .read _ _ _ _ _ _ => none
  | .write _ _ _ _ _ _ => none
  | .regwrite _ _ _ _ _ _ => none
  | .action _ _ _ _ => none
  | .freset _ _ _ _ _ => none
  | .reboot _ _ _ _ => none
  | .getTorqueEnable _ _ _ _ => none
  | .setTorqueEnable _ _ _ _ _ => none
  | .getPosition _ _ _ _ => none
  | .getVelocity _ _ _ _ => none
  | .getCurrent _ _ _ _ => none
  | .getTemperature _ _ _ _ => none
  | .getDelayTime _ _ _ _ => none
  | .setDelayTime _ _ _ _ _ => none
  | .getDriveMode _ _ _ _ => none
  | .getOperatingMode _ _ _ _ => none
  | .setOperatingMode _ _ _ _ _ => none
  | .getBaudRate _ _ _ _ => none
  | .setBaudRate _ _ _ _ _ => none
  | .configure _ _ _ _ _ => none

/-! ## Wire frames: encoding (R60, R63, R68) -/

/-- What a wire instruction's frame carries: identifier, instruction code, unstuffed payload (R68;
for a status frame the error byte and the parameters, R63). -/
structure WireParts where
  id : Byte
  code : Byte
  payload : List Byte
deriving DecidableEq, Repr

/-- The frame fields of a wire instruction; none for an instruction that is none (R68). -/
def wireParts (c : WireCodes) : Instr → Option WireParts
  | .wPing id => some ⟨id, c.ping, []⟩
  | .wRead id addr len => some ⟨id, c.read, readPayload addr len⟩
  | .wWrite id addr data => some ⟨id, c.write, writePayload addr data⟩
  | .wRegWrite id addr data => some ⟨id, c.regWrite, writePayload addr data⟩
  | .wAction id => some ⟨id, c.action, []⟩
  | .wFactoryReset id mode => some ⟨id, c.factoryReset, [mode]⟩
  | .wReboot id => some ⟨id, c.reboot, []⟩
  | .wStatus id err params => some ⟨id, c.status, err :: params⟩
  | _ => none

/-- The frame of a wire instruction (R60, R63). -/
def encodeWire (c : WireCodes) (i : Instr) : Option (List Byte) :=
  (wireParts c i).map (fun w => frameOf w.id w.code w.payload)

/-! ## Wire frames: decoding -/

/-- Why a byte string is no frame of a wire instruction. -/
inductive WireError where
  /-- No header (R120). -/
  | noHeader
  /-- The frame is not all there (R127 (b)). -/
  | incomplete
  /-- The length field is below 3 (R128). -/
  | malformed
  /-- The checksum disagrees (R127 (c)). -/
  | checksumMismatch
  /-- Bytes around the frame, or a content region STUFF does not produce. -/
  | notOneFrame
  /-- The instruction byte is none of the eight codes (R81). -/
  | unknownInstruction (code : Byte)
  /-- The payload has not the layout of the instruction (R68). -/
  | badPayload (code : Byte)
deriving DecidableEq, Repr

/-- The wire instruction with this code and payload (R68, R189 to R195). Where the implementation gives two
instructions one code, the first in the order of R68 is read: DESIGN CHOICE, log 31. -/
def wireInstr (c : WireCodes) (id code : Byte) (payload : List Byte) : Except WireError Instr :=
  if code = c.ping then
    match payload with
    | [] => .ok (.wPing id)
    | _ => .error (.badPayload code)
  else if code = c.read then
    match payload with
    | [a0, a1, l0, l1] => .ok (.wRead id (joinU16 a0 a1) (joinU16 l0 l1))
    | _ => .error (.badPayload code)
  else if code = c.write then
    match payload with
    | a0 :: a1 :: data => .ok (.wWrite id (joinU16 a0 a1) data)
    | _ => .error (.badPayload code)
  else if code = c.regWrite then
    match payload with
    | a0 :: a1 :: data => .ok (.wRegWrite id (joinU16 a0 a1) data)
    | _ => .error (.badPayload code)
  else if code = c.action then
    match payload with
    | [] => .ok (.wAction id)
    | _ => .error (.badPayload code)
  else if code = c.factoryReset then
    match payload with
    | [mode] => .ok (.wFactoryReset id mode)
    | _ => .error (.badPayload code)
  else if code = c.reboot then
    match payload with
    | [] => .ok (.wReboot id)
    | _ => .error (.badPayload code)
  else if code = c.status then
    match payload with
    | err :: params => .ok (.wStatus id err params)
    | [] => .error (.badPayload code)
  else .error (.unknownInstruction code)

/-- Decode a byte string that is exactly one frame of a wire instruction: the instruction is told by
offset 7 of the frame (R60, R63, R68). -/
def decodeWire (c : WireCodes) (bytes : List Byte) : Except WireError Instr :=
  match decodeFrameBytes bytes with
  | .headerNotFound _ => .error .noHeader
  | .incomplete _ => .error .incomplete
  | .malformed _ => .error .malformed
  | .checksumMismatch _ => .error .checksumMismatch
  | .success f =>
    if frameOf f.id f.instr f.content = bytes then wireInstr c f.id f.instr f.content
    else .error .notOneFrame

/-! ## Expansion of the device-level calls (R84, R178) -/

/-- The command a device-level call issues: XCHGR, or in the single-shot form XCHG with
`wait = WAITEFF(m)` (R84, R178). -/
def issue (f : Form) (waitUs : Word32) (id code : Byte) (payload : List Byte) (m n : Byte) : Instr :=
  match f with
  | .retried => .xchgr id code payload m n
  | .single => .xchg id code payload (waitEff waitUs m)

/-- The command `GET_q` issues: a READ at the quantity's row (R84, R196). -/
def expandGet (p : Params) (waitUs : Word32) (f : Form) (q : Quantity) (id m n : Byte) :
    Option Instr :=
  some (issue f waitUs id p.codes.read
    (readPayload (p.regmap.row q).addr (widthLen (p.regmap.row q).width)) m n)

/-- The command a device-level call expands to, for the parameters and the configured default wait
(R84). CONFIGURE is a list of calls, not one command, and a refused SET_delay_time issues none. GET_velocity and GET_current
read the present rows: DESIGN CHOICE, log 36. -/
def expand (p : Params) (waitUs : Word32) : Instr → Option Instr
  | .ping f id m n => some (issue f waitUs id p.codes.ping [] m n)
  | .read f id addr len m n => some (issue f waitUs id p.codes.read (readPayload addr len) m n)
  | .write f id addr data m n =>
    some (issue f waitUs id p.codes.write (writePayload addr data) m n)
  | .regwrite f id addr data m n =>
    some (issue f waitUs id p.codes.regWrite (writePayload addr data) m n)
  | .action f id m n => some (issue f waitUs id p.codes.action [] m n)
  | .freset f id mode m n => some (issue f waitUs id p.codes.factoryReset [mode] m n)
  | .reboot f id m n => some (issue f waitUs id p.codes.reboot [] m n)
  | .getTorqueEnable f id m n => expandGet p waitUs f .torqueEnable id m n
  | .setTorqueEnable f id on m n => some (issue f waitUs id p.codes.write
      (writePayload p.regmap.torqueEnable.addr [torqueByte on]) m n)
  | .getPosition f id m n => expandGet p waitUs f .presentPosition id m n
  | .getVelocity f id m n => expandGet p waitUs f .presentVelocity id m n
  | .getCurrent f id m n => expandGet p waitUs f .presentCurrent id m n
  | .getTemperature f id m n => expandGet p waitUs f .temperature id m n
  | .getDelayTime f id m n => expandGet p waitUs f .delayTime id m n
  | .setDelayTime f id us m n => (delayByte p us).map (fun b => issue f waitUs id p.codes.write
      (writePayload p.regmap.delayTime.addr [b]) m n)
  | .getDriveMode f id m n => expandGet p waitUs f .driveMode id m n
  | .getOperatingMode f id m n => expandGet p waitUs f .operatingMode id m n
  | .setOperatingMode f id code m n => some (issue f waitUs id p.codes.write
      (writePayload p.regmap.operatingMode.addr [code]) m n)
  | .getBaudRate f id m n => expandGet p waitUs f .baudRate id m n
  | .setBaudRate f id code m n => some (issue f waitUs id p.codes.write
      (writePayload p.regmap.baudRate.addr [code]) m n)
  | _ => none

/-! ## The words of the opcode table -/

/-- The bytes of a table word: bit 0 is the least significant bit of the first byte. Operand bytes
after them are zeros, as many as the longest all-zero command (INIT) has. -/
def tableBytes (nbits w : Nat) : List Byte :=
  (List.range (nbits / 8)).map (fun k => BitVec.ofNat 8 (w >>> (8 * k))) ++ List.replicate 14 0

/-- The instruction the decoder reads from a table word: the command with that code, or, for the status
code, which is no command's, the status frame with that code and zeros (log 12). -/
def decodeTableWord (nbits w : Nat) : Option Instr :=
  match decodePrefix (tableBytes nbits w) with
  | .ok i _ => some i
  | .reject (.illegalCommand code) =>
    if code = defaultCodes.status then some (.wStatus 0 0 []) else none
  | .reject _ => none

/-- The bytes of a table word that its command takes: all of them when the decoder refuses it. -/
def tableCommand (nbits w : Nat) : List Byte :=
  match decodePrefix (tableBytes nbits w) with
  | .ok _ rest => (tableBytes nbits w).take ((tableBytes nbits w).length - rest.length)
  | .reject _ => tableBytes nbits w

end Sys2Proof
end

