-- ==== Sys2Proof/Machine/Fetch.lean ====
section
/-!
DEFINITION. Which instruction the host's next request names (log 2), and how the host's table word is
laid at the head of the request queue.
-/

namespace Sys2Proof.Machine

/-- The instruction a request names: a command by its words (30_encoding R73, R80), a wire instruction
by its frame (R60, R63, R68), a device-level call by name (R84). None: it names none, and is refused
(IllegalCommand and malformed operands, 60_exceptions R230, D24; an ill-formed call, log 29), or it is an
accessor request, which `step` takes by itself (log 34). -/
def named (codes : Config.WireCodes) : Request → Option Instr
  | .command bytes =>
    match decode bytes with
    | .ok i => some i
    | .error _ => none
  | .frame bytes =>
    match decodeWire codes bytes with
    | .ok i => some i
    | .error _ => none
  | .call i => if i.wellFormed then some i else none
  | .access _ => none

/-- The request of a table word: its command, or the status frame for the status code (log 12). -/
def tableRequest (codes : Config.WireCodes) (nbits w : Nat) : Request :=
  match decodePrefix (tableBytes nbits w) with
  | .reject (.illegalCommand code) =>
    if code = codes.status then .frame (frameOf 0 codes.status [0]) else
      .command (tableCommand nbits w)
  | _ => .command (tableCommand nbits w)

/-- The instruction of a table word as the host's next request. -/
def withCommand (s : State) (nbits w : Nat) : State :=
  { s with port := tableRequest s.params.codes nbits w :: s.port }

end Sys2Proof.Machine
end

