-- ==== Sys2Proof/Machine/Step.lean ====
section
/-!
DEFINITION. One step: the host's next request, run to completion (10_state R10, 20_memory R54; log 1).
-/

namespace Sys2Proof.Machine

/-- Take the next request off the host's queue and execute it. A request that names no instruction is
refused (60_exceptions R230): the result port says so, and the device layer's last answer stays (log 29). With nothing requested the block stays Idle and waits
(70_reset_and_hazards R250). -/
def step (s : State) : Host.Outcome State Fault Refusal :=
  match s.port with
  | [] => .next s
  | .access a :: rest => execAccess a { s with port := rest }
  | r :: rest =>
    match named s.params.codes r with
    | some i => exec i { s with port := rest }
    | none => .next (refuse { s with port := rest })

/-- The state in which the next step runs the command of this table word (log 2, log 12). -/
def State.withFetchWord (s : State) (nbits w : Nat) : State := withCommand s nbits w

end Sys2Proof.Machine
end

