-- ==== Sys2Proof/Safety.lean ====
section
/-!
DEFINITION. What holds of the machine between two commands (10_state R27), and the lines on which every
exchange ends (43_session_exchange R157).
-/

namespace Sys2Proof

/-! ## Terms the claims use, of instructions and decode outcomes -/

/-- The request a command or an expanded call carries: identifier, instruction, payload. -/
def Instr.request : Instr → Option (Byte × Byte × List Byte)
  | .xchg id instr p _ => some (id, instr, p)
  | .xchgr id instr p _ _ => some (id, instr, p)
  | _ => none

/-- The form and the operands `m` and `n` of a device-level call (45_device_ops R186). CONFIGURE has none. -/
def Instr.policy : Instr → Option (Form × Byte × Byte)
  | .ping f _ m n => some (f, m, n)
  | .read f _ _ _ m n => some (f, m, n)
  | .write f _ _ _ m n => some (f, m, n)
  | .regwrite f _ _ _ m n => some (f, m, n)
  | .action f _ m n => some (f, m, n)
  | .freset f _ _ m n => some (f, m, n)
  | .reboot f _ m n => some (f, m, n)
  | .getTorqueEnable f _ m n => some (f, m, n)
  | .setTorqueEnable f _ _ m n => some (f, m, n)
  | .getPosition f _ m n => some (f, m, n)
  | .getVelocity f _ m n => some (f, m, n)
  | .getCurrent f _ m n => some (f, m, n)
  | .getTemperature f _ m n => some (f, m, n)
  | .getDelayTime f _ m n => some (f, m, n)
  | .setDelayTime f _ _ m n => some (f, m, n)
  | .getDriveMode f _ m n => some (f, m, n)
  | .getOperatingMode f _ m n => some (f, m, n)
  | .setOperatingMode f _ _ m n => some (f, m, n)
  | .getBaudRate f _ m n => some (f, m, n)
  | .setBaudRate f _ _ m n => some (f, m, n)
  | _ => none

/-- A decode outcome with its offsets reduced by `k` (43_session_exchange R146). -/
def DecodeResult.rebase (k : Nat) : DecodeResult → DecodeResult
  | .headerNotFound keep => .headerNotFound (keep - k)
  | .incomplete keep => .incomplete (keep - k)
  | .malformed keep => .malformed (keep - k)
  | .checksumMismatch f => .checksumMismatch { f with keep := f.keep - k }
  | .success f => .success { f with keep := f.keep - k }

/-- The pure commands of 60_exceptions R231. -/
def Instr.isPure : Instr → Bool
  | .crc16 _ => true
  | .le16 _ => true
  | .le32 _ => true
  | .u16 _ => true
  | .u32 _ => true
  | .s16 _ => true
  | .s32 _ => true
  | .stuff _ => true
  | .destuff _ => true
  | .hdrfind _ => true
  | .decode _ => true
  | _ => false

/-- The sixteen commands of the command port (30_encoding R74). -/
def Instr.isCommand : Instr → Bool
  | .encode _ _ _ => true
  | .xchg _ _ _ _ => true
  | .xchgr _ _ _ _ _ => true
  | .init _ _ _ _ _ _ => true
  | .setbaud _ => true
  | i => i.isPure

/-- A status frame: the device's step, not the block's (log 9). -/
def Instr.isStatus : Instr → Bool
  | .wStatus _ _ _ => true
  | _ => false

/-- READ and the accessors built on it (45_device_ops R192). -/
def Instr.isRead : Instr → Bool
  | .read _ _ _ _ _ _ => true
  | .getTorqueEnable _ _ _ _ => true
  | .getPosition _ _ _ _ => true
  | .getVelocity _ _ _ _ => true
  | .getCurrent _ _ _ _ => true
  | .getTemperature _ _ _ _ => true
  | .getDelayTime _ _ _ _ => true
  | .getDriveMode _ _ _ _ => true
  | .getOperatingMode _ _ _ _ => true
  | .getBaudRate _ _ _ _ => true
  | _ => false

end Sys2Proof

namespace Sys2Proof.Machine

/-- The response registers hold the values step 2 of an exchange clears them to (43_session_exchange
R148), whatever the outcome. -/
abbrev RespRegs.cleared (r : RespRegs) : Prop :=
  r.valid = false ∧ r.id = 0 ∧ r.instr = 0 ∧ r.err = 0 ∧ r.params = [] ∧ r.crcCalc = 0 ∧ r.crcWire = 0

/-- The invariant of the state between two commands. -/
structure Inv (s : State) : Prop where
  /-- The open parameters meet their constraints (00_scope R6). -/
  params : s.params.wf
  /-- `XSTATE = Idle` whenever no command is executing (R27). -/
  idle : s.xstate = .idle
  /-- `RXLEN <= CAP` (R27). -/
  rxLen : s.rx.len ≤ s.cfg.cap
  /-- `TXLEN <= TXCAP` (R27). -/
  txLen : s.tx.len ≤ s.params.txCap
  /-- `CAP >= CAP_MIN` (10_state R20). -/
  capMin : s.params.capMin ≤ s.cfg.cap
  /-- The buffers keep their canonical form. -/
  rxWf : Memory.wf s.rx.mem
  txWf : Memory.wf s.tx.mem
  /-- Nothing but `00` and the free values of a compaction stands at or beyond `RXLEN` (10_state R21). -/
  rxIn : ∀ c ∈ s.rx.mem, c.1 < s.rx.len
  /-- The free values stand inside the buffer. -/
  vacated : s.rx.vacated ≤ s.cfg.cap
  /-- No byte stands outside the send buffer (20_memory R40). -/
  txIn : ∀ c ∈ s.tx.mem, c.1 < s.params.txCap
  /-- `RSTATE = PartialFrame` implies a header at offset 0 (R27). -/
  partialHdr : s.flags.rstate = .partialFrame →
    4 ≤ s.rx.len ∧ s.rx.mem.readBytes 0 4 = Config.hdr
  /-- `HDRSEEN = 0` exactly when `RSTATE = Seeking` (R27, R151). -/
  seen : s.flags.hdrSeen = false ↔ s.flags.rstate = .seeking
  /-- `OUTCOME` is `None` or one of the seven exchange outcomes (10_state R14). -/
  outcome : s.resp.outcome = .none ∨ s.resp.outcome.isExchange = true
  /-- With `RESP_VALID = 0` the response registers hold their cleared values (60_exceptions R220). -/
  cleared : s.resp.valid = false → s.resp.cleared
  /-- `RESP_PLEN <= CAP - 11` (10_state R14). -/
  respFits : s.resp.params.length + 11 ≤ s.cfg.cap
  /-- `REQ_PLEN <= TXCAP - 10` (10_state R13). -/
  reqFits : s.req.payload.length + 10 ≤ s.params.txCap
  /-- Before INIT no exchange has run (70_reset_and_hazards R255). -/
  notReady : s.cfg.ready = false →
    s.rx.len = 0 ∧ s.flags.rstate = .seeking ∧ s.resp.valid = false

/-- The line goes quiet once its plan is used up: the premise of R157. -/
abbrev Transport.goesQuiet (l : Transport) : Prop := l.babble = []

/-! ## Terms the claims use -/

/-- The block is initialised and the frame of a request with this payload fits (R148 step 1). -/
abbrev State.takes (s : State) (p : List Byte) : Prop :=
  s.cfg.ready = true ∧ frameFits s.params.txCap p = true

/-- Nothing is pending or on its way, no time passes between the calls, and the line is not busy for
ever. -/
abbrev Transport.silent (l : Transport) : Prop :=
  l.avail = [] ∧ l.future = [] ∧ l.lag = [] ∧ l.balk = [] ∧ l.babble = []

/-- What no exchange touches: the parameters, the configuration registers, the host's queue, the send
buffer from offset `n` on, the receive buffer from `CAP` on, and the channel's settings and inputs. -/
structure ExchangeFrame (n : Nat) (s t : State) : Prop where
  params : t.params = s.params
  cfg : t.cfg = s.cfg
  port : t.port = s.port
  tx : ∀ a, n ≤ a → t.txByte a = s.txByte a
  rx : ∀ a, s.cfg.cap ≤ a → t.rx.mem.read a = s.rx.mem.read a
  lineBaud : t.line.baud = s.line.baud
  lineBits : t.line.bits = s.line.bits
  lineStop : t.line.stop = s.line.stop
  lineParity : t.line.parity = s.line.parity
  claimed : t.line.claimed = s.line.claimed
  grantedBaud : t.line.grantedBaud = s.line.grantedBaud

/-- The outcome of a checksum-valid status frame from `rid` with error byte `err`, for a request to
`id` (R154). -/
def statusOutcome (id rid err : Byte) : Code :=
  if err ≠ 0 then .statusError else if rid ≠ id then .wrongId else .success

/-- The device answers the next request, and nothing else happens on the line: `g` microseconds after
the send, within the wait of multiplier `m`, a status frame from `id` with instruction byte `st`, error
byte `00` and the parameters `b` arrives, and it fits the receive buffer. -/
structure Answered (s : State) (id st m : Byte) (p b : List Byte) (g : Nat) : Prop where
  inv : Inv s
  takes : s.takes p
  silent : s.line.silent
  replies : s.line.replies = [⟨true, [⟨g, frameOf id st (0 :: b)⟩]⟩]
  inTime : g ≤ (waitEff s.cfg.waitUs m).toNat
  hasFrame : payloadFits (0 :: b) = true
  fits : (frameOf id st (0 :: b)).length ≤ s.cfg.cap

end Sys2Proof.Machine
end

