-- ==== Sys2Proof/Certificates/Slice0/Obligations.lean ====
section
/-!
DEFINITION. The statements about DXLFC. Each docstring names the rules of spec/ it formalises; where a
clause rests on a choice of the model, it names the log entry.
-/

open Sys2Proof Sys2Proof.Machine

/-! ## Reset, step, words -/

/-- R250: the values the reset table gives. (`CAP_MIN` is a parameter; the rows R250 calls unspecified are
not here.) -/
def Obligations.ResetStateIsTheResetTable : Prop :=
  State.reset.xstate = .idle ∧ State.reset.resp.outcome = .none ∧ State.reset.resp.cleared ∧
  State.reset.policy = ⟨0, 0⟩ ∧ State.reset.req.id = 0 ∧ State.reset.req.instr = 0 ∧
  State.reset.reqPlen = 0 ∧ State.reset.respPlen = 0 ∧ State.reset.req.wait = 0 ∧
  State.reset.flags = ⟨false, .seeking⟩ ∧ State.reset.cfg.ready = false ∧
  State.reset.cfg.cap = State.reset.params.capMin ∧ (∀ i, State.reset.rxByte i = 0) ∧
  State.reset.rx.len = 0 ∧ State.reset.tx.len = 0

/-- R27: the invariant holds at reset. (The reset values of the parameters are the model's: log 5.) -/
def Obligations.ResetMeetsTheInvariant : Prop := Inv State.reset

/-- R27, R13, R14, R20, R21: every step keeps the invariant: the register and buffer bounds, the
canonical form of the buffers, a header at offset 0 when `RSTATE` says so, `XSTATE = Idle`. -/
def Obligations.EveryStepKeepsTheInvariant : Prop :=
  ∀ s t : State, Inv s → Machine.step s = .next t → Inv t

/-- R73, R10: a step executes the instruction the host's next request names, with the request taken
off the queue, and nothing else around it; a request that names none is refused (R230). The model's
choices: the kinds of request (log 2) and the accessor request (log 34); that truncated and overlong
command bytes are refused (log 18), a byte string that is no single frame (log 9), an ill-formed named call
(log 29); that with nothing requested the state stays (log 25). -/
def Obligations.StepRunsTheNamedInstruction : Prop :=
  ∀ (s : State) (rest : List Request),
    (∀ bytes i, s.port = .command bytes :: rest → decode bytes = .ok i →
      Machine.step s = exec i { s with port := rest }) ∧
    (∀ bytes e, s.port = .command bytes :: rest → decode bytes = .error e →
      Machine.step s = .next { s with port := rest, result := ⟨.refused, []⟩ }) ∧
    (∀ bytes i, s.port = .frame bytes :: rest → decodeWire s.params.codes bytes = .ok i →
      Machine.step s = exec i { s with port := rest }) ∧
    (∀ bytes e, s.port = .frame bytes :: rest → decodeWire s.params.codes bytes = .error e →
      Machine.step s = .next { s with port := rest, result := ⟨.refused, []⟩ }) ∧
    (∀ i, s.port = .call i :: rest → i.wellFormed = true →
      Machine.step s = exec i { s with port := rest }) ∧
    (∀ i, s.port = .call i :: rest → i.wellFormed = false →
      Machine.step s = .next { s with port := rest, result := ⟨.refused, []⟩ }) ∧
    (∀ a, s.port = .access a :: rest → Machine.step s = execAccess a { s with port := rest }) ∧
    (s.port = [] → Machine.step s = .next s)

/-- R80: every command code outside the table of R74 is refused with no state change, whatever bytes
follow it. -/
def Obligations.IllegalCommandCodesAreRefused : Prop :=
  ∀ (s : State) (code : Byte) (operands : List Byte) (rest : List Request),
    code ∉ ([0x01, 0x02, 0x03, 0x04, 0x05, 0x06, 0x07, 0x08, 0x09, 0x0A, 0x0B, 0x0C, 0x10, 0x11,
      0x20, 0x21] : List Byte) →
    s.port = .command (code :: operands) :: rest →
    Machine.step s = .next { s with port := rest, result := ⟨.refused, []⟩ }

/-- R83, 95_test_vectors 3: command words of the spec's examples, and one wire frame (S3), decode to
the instructions they stand for. -/
def Obligations.SpecExampleWordsDecode : Prop :=
  decode [0x11, 0x01, 0x02, 0x04, 0x00, 0x84, 0x00, 0x04, 0x00, 0x00, 0x00] =
    .ok (.xchgr 0x01 0x02 [0x84, 0x00, 0x04, 0x00] 0 0) ∧
  decode [0x10, 0x01, 0x02, 0x04, 0x00, 0x84, 0x00, 0x04, 0x00, 0xE8, 0x03, 0x00, 0x00, 0x00] =
    .ok (.xchg 0x01 0x02 [0x84, 0x00, 0x04, 0x00] 1000) ∧
  decode [0x20, 0x20, 0x00, 0xE8, 0x03, 0x00, 0x00, 0x00, 0xE1, 0x00, 0x00, 0x08, 0x01, 0x00] =
    .ok (.init 32 1000 57600 8 1 0) ∧
  decode [0x21, 0x40, 0x42, 0x0F, 0x00] = .ok (.setbaud 1000000) ∧
  decode [0x01, 0x02, 0x00, 0x55, 0x44] = .ok (.crc16 [0x55, 0x44]) ∧
  decode [0x07, 0x04, 0x00, 0x5D, 0x0E, 0x00, 0x00] = .ok (.s32 [0x5D, 0x0E, 0x00, 0x00]) ∧
  decodeWire Config.defaultCodes
      [0xFF, 0xFF, 0xFD, 0x00, 0x01, 0x07, 0x00, 0x02, 0x84, 0x00, 0x04, 0x00, 0x1D, 0x15] =
    .ok (.wRead 0x01 0x0084 4)

/-- R73, R74: decoding the words of a command gives the command back, at every operand value. -/
def Obligations.CommandWordsRoundTrip : Prop :=
  ∀ (i : Instr) (bs : List Byte), i.wellFormed = true → encode i = some bs → decode bs = .ok i

/-- R73, R74: a byte string decodes to a command only if it is exactly that command's words. That one with bytes
left over, or cut short, is no command is the model's choice (log 18, DEDUCED from R230 and U7). -/
def Obligations.DecodedCommandsAreTheirWords : Prop :=
  ∀ (bs : List Byte) (i : Instr), decode bs = .ok i → encode i = some bs ∧ i.wellFormed = true

/-- R60, R63, R68: decoding the frame of a wire instruction gives the instruction back, for any eight
different instruction codes (the spec does not say they differ: log 31). -/
def Obligations.WireFramesRoundTrip : Prop :=
  ∀ (c : Config.WireCodes) (i : Instr) (bs : List Byte), c.toList.Nodup → i.wellFormed = true →
    encodeWire c i = some bs → decodeWire c bs = .ok i

/-- R60, R63, R68: a byte string decodes to a wire instruction only if it is exactly its frame. That nothing
may stand around the frame, and that its content must be stuffed, is the model's choice (log 9): DECODE itself
ignores the bytes around a frame (R133). -/
def Obligations.DecodedFramesAreTheirEncoding : Prop :=
  ∀ (c : Config.WireCodes) (bs : List Byte) (i : Instr), decodeWire c bs = .ok i →
    encodeWire c i = some bs

/-! ## Checksum Engine and Byte-Pair Codec -/

/-- R91. -/
def Obligations.ChecksumIgnoresLeadingZeros : Prop :=
  crc16 [] = 0x0000 ∧ (∀ l, crc16 (0x00 :: l) = crc16 l) ∧ crc16 [0x00] = 0x0000 ∧
  crc16 [0x00, 0x55] = 0x01FE

/-- R92: the checksum is order-sensitive, every single-bit flip changes it, and it is linear over
exclusive-or for equal lengths. -/
def Obligations.ChecksumIsLinearAndSeesEveryBit : Prop :=
  crc16 [0x55, 0x44] = 0x7F9D ∧ crc16 [0x44, 0x55] = 0x19FB ∧
  (∀ (pre post : List Byte) (b : Byte) (k : Nat), k < 8 →
    crc16 (pre ++ (b ^^^ (1#8 <<< k)) :: post) ≠ crc16 (pre ++ b :: post)) ∧
  (∀ a b : List Byte, a.length = b.length →
    crc16 a ^^^ crc16 b = crc16 (List.zipWith (· ^^^ ·) a b))

/-- R90, R94, R95: CRC16, LE16 and LE32 on an Idle block present their results and change nothing
else (R231). The serialisation of the result is R73. -/
def Obligations.SplitAndChecksumCommandsAnswer : Prop :=
  ∀ s : State, s.xstate = .idle →
    (∀ v : Word16, exec (.le16 v) s =
      .next { s with result := ⟨.success, [2, 0, v.extractLsb' 0 8, v.extractLsb' 8 8]⟩ }) ∧
    (∀ v : Word32, exec (.le32 v) s =
      .next { s with result := ⟨.success, [4, 0, v.extractLsb' 0 8, v.extractLsb' 8 8,
        v.extractLsb' 16 8, v.extractLsb' 24 8]⟩ }) ∧
    (∀ data : List Byte, exec (.crc16 data) s =
      .next { s with result := ⟨.success, [(crc16 data).extractLsb' 0 8,
        (crc16 data).extractLsb' 8 8]⟩ })

/-- R96 to R99: the join commands on an Idle block. Two bytes are `b0 + 256 * b1`, four likewise; the
signed forms subtract `2^16` or `2^32` from the upper half; the result is presented little-endian; a
list of any other length is refused. -/
def Obligations.JoinCommandsAnswerOrRefuse : Prop :=
  ∀ s : State, s.xstate = .idle →
    (∀ b0 b1 : Byte,
      exec (.u16 [b0, b1]) s = .next { s with result := ⟨.success, [b0, b1]⟩ } ∧
      exec (.s16 [b0, b1]) s = .next { s with result := ⟨.success, [b0, b1]⟩ } ∧
      (u16Of [b0, b1]).map (·.toNat) = some (b0.toNat + 256 * b1.toNat) ∧
      s16Of [b0, b1] = some (if b0.toNat + 256 * b1.toNat < 32768
        then ((b0.toNat + 256 * b1.toNat : Nat) : Int)
        else ((b0.toNat + 256 * b1.toNat : Nat) : Int) - 65536)) ∧
    (∀ b0 b1 b2 b3 : Byte,
      exec (.u32 [b0, b1, b2, b3]) s = .next { s with result := ⟨.success, [b0, b1, b2, b3]⟩ } ∧
      exec (.s32 [b0, b1, b2, b3]) s = .next { s with result := ⟨.success, [b0, b1, b2, b3]⟩ } ∧
      (u32Of [b0, b1, b2, b3]).map (·.toNat) =
        some (b0.toNat + 256 * b1.toNat + 65536 * b2.toNat + 16777216 * b3.toNat) ∧
      s32Of [b0, b1, b2, b3] =
        some (if b0.toNat + 256 * b1.toNat + 65536 * b2.toNat + 16777216 * b3.toNat < 2147483648
          then ((b0.toNat + 256 * b1.toNat + 65536 * b2.toNat + 16777216 * b3.toNat : Nat) : Int)
          else ((b0.toNat + 256 * b1.toNat + 65536 * b2.toNat + 16777216 * b3.toNat : Nat) : Int)
            - 4294967296)) ∧
    (∀ b : List Byte, b.length ≠ 2 →
      exec (.u16 b) s = .next { s with result := ⟨.refused, []⟩ } ∧
      exec (.s16 b) s = .next { s with result := ⟨.refused, []⟩ }) ∧
    (∀ b : List Byte, b.length ≠ 4 →
      exec (.u32 b) s = .next { s with result := ⟨.refused, []⟩ } ∧
      exec (.s32 b) s = .next { s with result := ⟨.refused, []⟩ })

/-- R231, R230: in every state a pure command (CRC16, LE16, LE32, U16, U32, S16, S32, STUFF, DESTUFF,
HDRFIND, DECODE) answers a next state that differs in the result port only, with result code Success or
Refused; ENCODE writes the send buffer besides; DECODE presents the decode outcome, or refuses an operand
longer than `CAP`. (That fields an outcome does not have are not serialised is log 11.) -/
def Obligations.PureCommandsChangeOnlyTheResult : Prop :=
  ∀ (i : Instr) (s : State),
    (i.isPure = true → ∃ t, exec i s = .next t ∧ t = { s with result := t.result } ∧
      (t.result.code = .success ∨ t.result.code = .refused)) ∧
    (∀ id ins p, i = .encode id ins p → ∃ t, exec i s = .next t ∧
      t = { s with result := t.result, tx := t.tx } ∧
      (t.result.code = .success ∨ t.result.code = .refused)) ∧
    (∀ buf, i = .decode buf → s.xstate = .idle → exec i s = .next { s with result :=
      if buf.length ≤ s.cfg.cap then ⟨.success, decodeData (decodeFrameBytes buf)⟩
      else ⟨.refused, []⟩ })

/-! ## Frame Codec -/

/-- R105, R73: the STUFF command on an Idle block presents the list the rule's loop builds: byte `i` of the
payload, followed by `FD` when bytes `i-2, i-1, i` are `FF FF FD`. That a list longer than 65535 bytes is a Success
with a free length prefix is the model's choice (log 33). -/
def Obligations.StuffFollowsTheWindowRule : Prop :=
  ∀ (s : State) (p : List Byte), s.xstate = .idle →
    exec (.stuff p) s = .next { s with result := ⟨.success, blob ((List.range p.length).flatMap
      fun i => if 2 ≤ i ∧ p.getD (i - 2) 0 = 0xFF ∧ p.getD (i - 1) 0 = 0xFF ∧ p.getD i 0 = 0xFD
        then [p.getD i 0, 0xFD] else [p.getD i 0])⟩ }

/-- R123, R73: the DESTUFF command on an Idle block presents the list the rule's loop builds: byte `j` of the
raw region unless bytes `j-3, j-2, j-1` are `FF FF FD`, whatever byte `j` is. (The length prefix of a list longer than
65535 bytes, which no operand of a command is, is the model's: log 33.) -/
def Obligations.DestuffFollowsTheWindowRule : Prop :=
  ∀ (s : State) (r : List Byte), s.xstate = .idle →
    exec (.destuff r) s = .next { s with result := ⟨.success, blob ((List.range r.length).flatMap
      fun j => if 3 ≤ j ∧ r.getD (j - 3) 0 = 0xFF ∧ r.getD (j - 2) 0 = 0xFF ∧
          r.getD (j - 1) 0 = 0xFD
        then [] else [r.getD j 0])⟩ }

/-- R107 (a), (c), R72: stuffing adds at most a third; in a stuffed payload every `FF FF FD` is followed
by `FD`, so it holds no header. -/
def Obligations.StuffedPayloadsHoldNoHeader : Prop :=
  ∀ p : List Byte,
    p.length ≤ (stuff p).length ∧ (stuff p).length ≤ p.length + p.length / 3 ∧
    (∀ i, ((stuff p).drop i).take 3 = [0xFF, 0xFF, 0xFD] → (stuff p)[i + 3]? = some 0xFD) ∧
    hdrfind (stuff p) = none

/-- R125: de-stuffing inverts stuffing, and stuffing inverts de-stuffing exactly on the image of
STUFF. -/
def Obligations.DestuffInvertsStuff : Prop :=
  (∀ p : List Byte, destuff (stuff p) = p) ∧
  (∀ r : List Byte, stuff (destuff r) = r ↔ ∃ p, r = stuff p)

/-- R120: HDRFIND on an Idle block finds the lowest offset at which the four header bytes stand wholly
inside the operand, else presents `(0, 0)`; an operand longer than `CAP` is refused (R230). -/
def Obligations.HdrfindFindsTheLowestHeader : Prop :=
  ∀ (s : State) (buf : List Byte), s.xstate = .idle →
    (buf.length ≤ s.cfg.cap →
      (∀ h, (buf.drop h).take 4 = [0xFF, 0xFF, 0xFD, 0x00] →
        (∀ k, k < h → (buf.drop k).take 4 ≠ [0xFF, 0xFF, 0xFD, 0x00]) →
        hdrfind buf = some h ∧
        exec (.hdrfind buf) s = .next { s with result := ⟨.success, 1 :: natLe16 h⟩ }) ∧
      ((∀ k, (buf.drop k).take 4 ≠ [0xFF, 0xFF, 0xFD, 0x00]) →
        hdrfind buf = none ∧
        exec (.hdrfind buf) s = .next { s with result := ⟨.success, [0, 0, 0]⟩ })) ∧
    (s.cfg.cap < buf.length →
      exec (.hdrfind buf) s = .next { s with result := ⟨.refused, []⟩ })

/-- R126, R128, R132: DECODE's checks in their order, with the fields at their offsets from the lowest
header `h` and `L = b5 + 256 * b6`. -/
def Obligations.DecodeMakesItsChecksInOrder : Prop :=
  ∀ buf : List Byte,
    ((∀ k, (buf.drop k).take 4 ≠ [0xFF, 0xFF, 0xFD, 0x00]) →
      decodeFrameBytes buf = .headerNotFound (buf.length - 3)) ∧
    (∀ h, (buf.drop h).take 4 = [0xFF, 0xFF, 0xFD, 0x00] →
      (∀ k, k < h → (buf.drop k).take 4 ≠ [0xFF, 0xFF, 0xFD, 0x00]) →
      (buf.length < h + 7 → decodeFrameBytes buf = .incomplete h) ∧
      (h + 7 ≤ buf.length →
        ∀ L, L = (buf.getD (h + 5) 0).toNat + 256 * (buf.getD (h + 6) 0).toNat →
        (buf.length < h + 7 + L → decodeFrameBytes buf = .incomplete h) ∧
        (h + 7 + L ≤ buf.length → L < 3 → decodeFrameBytes buf = .malformed h) ∧
        (h + 7 + L ≤ buf.length → 3 ≤ L →
          ∀ cc cw, cc = crc16 ((buf.drop h).take (5 + L)) →
            cw = joinU16 (buf.getD (h + 5 + L) 0) (buf.getD (h + 6 + L) 0) →
            decodeFrameBytes buf =
              (if cc = cw then DecodeResult.success else DecodeResult.checksumMismatch)
                ⟨h, buf.getD (h + 4) 0, buf.getD (h + 7) 0,
                  destuff ((buf.drop (h + 8)).take (L - 3)), cc, cw⟩)))

/-- R115: DECODE of an encoded frame restores identifier, instruction and payload exactly, as a function
and as the command on an Idle block whose receive buffer is long enough. -/
def Obligations.EncodeThenDecodeRestoresTheRequest : Prop :=
  ∀ (id ins : Byte) (p : List Byte), payloadFits p = true →
    ∃ c : Word16, decodeFrameBytes (frameOf id ins p) = .success ⟨0, id, ins, p, c, c⟩ ∧
      ∀ s : State, s.xstate = .idle → (frameOf id ins p).length ≤ s.cfg.cap →
        exec (.decode (frameOf id ins p)) s = .next { s with result :=
          ⟨.success, [3, 0, 0, id, ins] ++ blob p ++ le16 c ++ le16 c⟩ }

/-- R134, for every frame: a proper prefix of a frame is HeaderNotFound with keep 0 below four bytes and
Incomplete with keep 0 from four bytes on. -/
def Obligations.PrefixesOfAFrameAreNotDecoded : Prop :=
  ∀ (id ins : Byte) (p : List Byte) (k : Nat), payloadFits p = true →
    k < (frameOf id ins p).length →
    decodeFrameBytes ((frameOf id ins p).take k) =
      if k < 4 then .headerNotFound 0 else .incomplete 0

/-- R133: bytes before the first header and after the frame do not influence a Success or a
ChecksumMismatch. -/
def Obligations.SurroundingBytesDoNotMatter : Prop :=
  ∀ (pre fr post : List Byte) (f : Fields),
    f.keep = 0 → fr.length = frameLenAt fr 0 →
    hdrfind (pre ++ fr ++ post) = some pre.length →
    (decodeFrameBytes fr = .success f →
      decodeFrameBytes (pre ++ fr ++ post) = .success { f with keep := pre.length }) ∧
    (decodeFrameBytes fr = .checksumMismatch f →
      decodeFrameBytes (pre ++ fr ++ post) = .checksumMismatch { f with keep := pre.length })

/-- R135: a flipped bit in `[h+4, h+FLEN)` that leaves the length field unchanged gives
ChecksumMismatch. -/
def Obligations.FlippedBitsGiveChecksumMismatch : Prop :=
  ∀ (id ins : Byte) (p pre post : List Byte) (b : Byte) (k : Nat), payloadFits p = true → k < 8 →
    frameOf id ins p = pre ++ b :: post → 4 ≤ pre.length → pre.length ≠ 5 → pre.length ≠ 6 →
    ∃ f : Fields, f.keep = 0 ∧ f.crcCalc ≠ f.crcWire ∧
      decodeFrameBytes (pre ++ (b ^^^ (1#8 <<< k)) :: post) = .checksumMismatch f

/-- R146: compaction at the keep offset of a non-terminal DECODE loses nothing: with whatever bytes `x`
arrive later, the first header of `b ++ x` is at or after keep, and decoding the kept bytes with `x` is
decoding `b ++ x` with the offsets reduced by keep. -/
def Obligations.ResynchronisationLosesNothing : Prop :=
  ∀ (b x : List Byte) (k : Nat),
    (decodeFrameBytes b = .headerNotFound k ∨ decodeFrameBytes b = .incomplete k) →
    (∀ h, hdrfind (b ++ x) = some h → k ≤ h) ∧
    decodeFrameBytes (b.drop k ++ x) = (decodeFrameBytes (b ++ x)).rebase k

/-- R108, R110: ENCODE on an Idle block leaves the frame in `TXBUF` from offset 0 and its length in
`TXLEN`, returns it, and changes no other byte or register; a frame that does not fit is refused. (The length
prefix of a frame longer than 65535 bytes is a free value: log 33.) -/
def Obligations.EncodeFillsTheSendBuffer : Prop :=
  ∀ (s : State) (id ins : Byte) (p : List Byte), Memory.wf s.tx.mem → s.xstate = .idle →
    ∀ head, head = [0xFF, 0xFF, 0xFD, 0x00, id] ++
        le16 (BitVec.ofNat 16 ((stuff p).length + 3)) ++ [ins] ++ stuff p →
    ∀ frame, frame = head ++ le16 (crc16 head) →
    (10 + (stuff p).length ≤ s.params.txCap → (stuff p).length + 3 ≤ 0xFFFF →
      ∃ t, exec (.encode id ins p) s = .next t ∧
        t = { s with tx := t.tx, result := ⟨.success, blob frame⟩ } ∧
        t.tx.len = 10 + (stuff p).length ∧ t.txBytes = frame ∧
        ∀ a, 10 + (stuff p).length ≤ a → t.txByte a = s.txByte a) ∧
    (s.params.txCap < 10 + (stuff p).length ∨ 0xFFFF < (stuff p).length + 3 →
      exec (.encode id ins p) s = .next { s with result := ⟨.refused, []⟩ })

/-- R60, R68, R230: the seven wire instructions W.PING, W.READ, W.WRITE, W.REG_WRITE, W.ACTION,
W.FACTORY_RESET, W.REBOOT leave their instruction frame in the send buffer, their code at offset 7, and
change nothing else; one whose frame does not fit is refused. That the block builds the frame is the
model's meaning for these rows: log 9. (The length prefix of a frame longer than 65535 bytes: log 33.) -/
def Obligations.WireInstructionsBuildTheirFrame : Prop :=
  ∀ (s : State) (i : Instr) (w : WireParts), wireParts s.params.codes i = some w →
    i.isStatus = false → Memory.wf s.tx.mem → s.xstate = .idle →
    (frameFits s.params.txCap w.payload = true →
      ∃ t, exec i s = .next t ∧
        t = { s with tx := t.tx, result := ⟨.success, blob (frameOf w.id w.code w.payload)⟩ } ∧
        t.txBytes = frameOf w.id w.code w.payload ∧ t.txBytes[7]? = some w.code ∧
        t.tx.len = (frameOf w.id w.code w.payload).length ∧
        ∀ a, t.tx.len ≤ a → t.txByte a = s.txByte a) ∧
    (frameFits s.params.txCap w.payload = false →
      exec i s = .next { s with result := ⟨.refused, []⟩ })

/-- R63, R24, R62: a status frame joins the bytes pending in the transport, its code at offset 7, and
changes nothing else, in any state of the block; a payload too long for the length field is refused. That
the frame arrives from the line is the model's meaning for this row: log 9. -/
def Obligations.StatusFramesJoinThePendingInput : Prop :=
  ∀ (s : State) (id err : Byte) (params : List Byte),
    (payloadFits (err :: params) = true →
      ∃ fr, exec (.wStatus id err params) s =
          .next { s with line := { s.line with avail := s.line.avail ++ fr } } ∧
        fr = frameOf id s.params.codes.status (err :: params) ∧
        fr[7]? = some s.params.codes.status ∧
        decodeWire Config.defaultCodes (frameOf id 0x55 (err :: params)) =
          .ok (.wStatus id err params)) ∧
    (payloadFits (err :: params) = false →
      exec (.wStatus id err params) s = .next { s with result := ⟨.refused, []⟩ })

/-! ## Session set-up -/

/-- R187, R256, R257: INIT on an Idle block. (That the registry's answer is one bit of the state, which no
step changes, is the model's choice: log 32.) -/
def Obligations.InitConstructsTheSession : Prop :=
  ∀ (s : State) (cap : Word16) (waitUs baud : Word32) (bits stop parity : Byte),
    s.xstate = .idle →
    (s.cfg.ready = true →
      exec (.init cap waitUs baud bits stop parity) s =
        .next { s with result := ⟨.refused, []⟩ }) ∧
    (s.cfg.ready = false → s.line.claimed = true →
      exec (.init cap waitUs baud bits stop parity) s =
        .next { s with result := ⟨.constructionFailure, []⟩ }) ∧
    (s.cfg.ready = false → s.line.claimed = false →
      ∃ t, exec (.init cap waitUs baud bits stop parity) s = .next t ∧
        t = { s with
          cfg := ⟨max cap.toNat s.params.capMin, waitUs, baud, s.line.grantedBaud, true⟩
          line := { s.line with baud := baud, bits := bits, stop := stop, parity := parity }
          rx := t.rx
          tx := { s.tx with len := 0 }
          result := ⟨.success, []⟩ } ∧
        t.rx.len = 0 ∧ (∀ i, i < t.cfg.cap → t.rxByte i = 0) ∧
        (∀ i, t.cfg.cap ≤ i → t.rx.mem.read i = s.rx.mem.read i))

/-- R188: SETBAUD. -/
def Obligations.SetbaudSetsTheRateOrIsRefused : Prop :=
  ∀ (s : State) (baud : Word32),
    (s.xstate = .idle → s.cfg.ready = true →
      exec (.setbaud baud) s = .next { s with
        cfg := { s.cfg with baud := baud }
        line := { s.line with baud := baud }
        result := ⟨.success, []⟩ }) ∧
    (s.xstate ≠ .idle ∨ s.cfg.ready = false →
      exec (.setbaud baud) s = .next { s with result := ⟨.refused, []⟩ })

/-- R20: the parameters and the host's queue are written by no instruction; the configuration registers
by INIT only, but for `CFG_BAUD`, which SETBAUD, and CONFIGURE through it, writes as well. -/
def Obligations.OnlySetUpWritesTheConfiguration : Prop :=
  ∀ (i : Instr) (s t : State), exec i s = .next t →
    t.params = s.params ∧ t.port = s.port ∧
    ((∀ cap w b x y z, i ≠ .init cap w b x y z) →
      t.cfg.cap = s.cfg.cap ∧ t.cfg.waitUs = s.cfg.waitUs ∧ t.cfg.ready = s.cfg.ready ∧
      t.cfg.actualBaud = s.cfg.actualBaud ∧
      ((∀ b, i ≠ .setbaud b) → (∀ f id b d o, i ≠ .configure f id b d o) →
        t.cfg.baud = s.cfg.baud))

/-! ## Refusals -/

/-- R230 (Busy): a block that is not Idle refuses every command, with no other change. So it does with the seven
wire instructions that build a frame (the model's meaning for them: log 9; W.STATUS, the device's step, is not
refused). A call is refused through its command and answers Refused (log 27); a SET_delay_time that does not fit is
not issued and answers Refused (log 14). Of CONFIGURE every command is refused: it answers Refused, or NoResponse
when there is no candidate rate (log 21). -/
def Obligations.BusyBlockRefusesEveryCommand : Prop :=
  ∀ (i : Instr) (s : State), s.xstate ≠ .idle → i.isStatus = false →
    (∃ t, exec i s = .next t ∧ t = { s with result := t.result, device := t.device }) ∧
    (i.isCommand = true ∨ (wireParts s.params.codes i).isSome = true →
      exec i s = .next { s with result := ⟨.refused, []⟩ }) ∧
    (∀ j, expand s.params s.cfg.waitUs i = some j →
      exec i s = .next { s with result := ⟨.refused, []⟩, device := ⟨.refused, .none⟩ }) ∧
    (∀ f id us m n, i = .setDelayTime f id us m n → delayByte s.params us = none →
      exec i s = .next { s with device := ⟨.refused, .none⟩ }) ∧
    (∀ f id baud us mode, i = .configure f id baud us mode →
      exec i s = .next { s with
        result := ⟨.refused, []⟩
        device := ⟨if s.params.baudCandidates = [] then .noResponse else .refused, .none⟩ })

/-- R230 (NotInitialised, FrameTooLong), R179, R186: an exchange whose precondition fails is refused as a
whole, with no state change; a call that would issue it answers Refused and no value, which is the model's
choice (log 27: R186 lists no such outcome). -/
def Obligations.UnacceptedExchangesChangeNothing : Prop :=
  ∀ (s : State) (id ins : Byte) (p : List Byte),
    (s.xstate ≠ .idle ∨ s.cfg.ready = false ∨ s.params.txCap < 10 + (stuff p).length ∨
      0xFFFF < (stuff p).length + 3) →
    (∀ wait, exec (.xchg id ins p wait) s = .next { s with result := ⟨.refused, []⟩ }) ∧
    (∀ mult iters, exec (.xchgr id ins p mult iters) s =
      .next { s with result := ⟨.refused, []⟩ }) ∧
    (∀ i j, expand s.params s.cfg.waitUs i = some j → j.request = some (id, ins, p) →
      exec i s = .next { s with result := ⟨.refused, []⟩, device := ⟨.refused, .none⟩ })

/-! ## The exchange -/

/-- R147, R148, R157, R220: on a line that goes quiet an accepted XCHG always ends, in one of the seven
outcomes, with the request latched, exactly one frame sent, `ATTEMPT` 1, `XSTATE` Idle, the result the
outcome, and nothing else touched. (The result bytes `respData` are the model's serialisation: log 11.) -/
def Obligations.ExchangeEndsOnAQuietLine : Prop :=
  ∀ (s : State) (id ins : Byte) (p : List Byte) (wait : Word40), Inv s → s.takes p →
    s.line.goesQuiet →
    ∃ t, exec (.xchg id ins p wait) s = .next t ∧ t.xstate = .idle ∧
      t.resp.outcome.isExchange = true ∧ t.result = ⟨t.resp.outcome, respData t⟩ ∧
      t.req = ⟨id, ins, p, wait⟩ ∧ t.policy = { s.policy with attempt := 1 } ∧
      t.line.sent = s.line.sent ++ [frameOf id ins p] ∧ t.txBytes = frameOf id ins p ∧
      t.tx.len = (frameOf id ins p).length ∧ t.device = s.device ∧
      ExchangeFrame (frameOf id ins p).length s t

/-- R174, R175, R176, R180: on a line that goes quiet an accepted XCHGR makes `n` attempts, at least one
and at most `ITERS(iters)`. Attempt `k + 1` is the XCHG with `wait = WAITEFF(mult)` from the state `u k` the
attempt before it left; no attempt before the last ended in Success, and the last one did or is number
`ITERS(iters)`. The block ends as the last attempt leaves it, but for `ATTEMPT` and `ITER_LIMIT`: its outcome is
the result, and the same frame was sent once in each attempt. (The result bytes `respData`: log 11.) -/
def Obligations.RetryLoopStopsAtSuccessOrTheLimit : Prop :=
  ∀ (s : State) (id ins : Byte) (p : List Byte) (mult iters : Byte), Inv s → s.takes p →
    s.line.goesQuiet →
    ∃ (t : State) (n : Nat) (u : Nat → State), exec (.xchgr id ins p mult iters) s = .next t ∧
      1 ≤ n ∧ n ≤ (if iters = 0 then 5 else iters.toNat) ∧ u 0 = s ∧
      (∀ k, k < n →
        exec (.xchg id ins p (waitEff s.cfg.waitUs mult)) (u k) = .next (u (k + 1))) ∧
      (∀ k, 1 ≤ k → k < n → (u k).resp.outcome ≠ .success) ∧
      ((u n).resp.outcome = .success ∨ n = (if iters = 0 then 5 else iters.toNat)) ∧
      t = { u n with policy := t.policy, result := ⟨(u n).resp.outcome, respData t⟩ } ∧
      t.policy.attempt.toNat = n ∧
      t.policy.iterLimit.toNat = (if iters = 0 then 5 else iters.toNat) ∧
      t.xstate = .idle ∧ t.resp.outcome.isExchange = true ∧
      t.req = ⟨id, ins, p, waitEff s.cfg.waitUs mult⟩ ∧
      t.line.sent = s.line.sent ++ List.replicate n (frameOf id ins p) ∧
      t.txBytes = frameOf id ins p ∧ t.tx.len = (frameOf id ins p).length ∧
      t.device = s.device ∧ ExchangeFrame (frameOf id ins p).length s t

/-- R178: the single-shot form is XCHGR with one attempt: the same in every register but `ITER_LIMIT`,
also where the exchange never ends. -/
def Obligations.SingleShotIsOneAttempt : Prop :=
  ∀ (s : State) (id ins : Byte) (p : List Byte) (mult : Byte), s.xstate = .idle → s.takes p →
    exec (.xchgr id ins p mult 1) s =
      match exec (.xchg id ins p (waitEff s.cfg.waitUs mult)) s with
      | .next t => .next { t with policy := { t.policy with iterLimit := 1 } }
      | .fault r => .fault r
      | .refused r => .refused r

/-- R171, R172, R75: the effective wait is the exact product, the default for 0; the number of attempts
is 5 for 0, else the count, never 0 and at most 255. -/
def Obligations.PolicyOperandsAreExact : Prop :=
  (∀ (waitUs : Word32) (mult : Byte), (waitEff waitUs mult).toNat =
    if mult = 0 then waitUs.toNat else waitUs.toNat * mult.toNat) ∧
  (∀ iters : Byte, (itersOf iters).toNat = (if iters = 0 then 5 else iters.toNat) ∧
    1 ≤ (itersOf iters).toNat ∧ (itersOf iters).toNat ≤ 255)

/-- R251, R54: an exchange relies on nothing before it but `CFG_CAP`, `CFG_READY`, `XSTATE = Idle`, the
transport's state and the parameters: two blocks that agree on these end alike, whatever their response
registers, latches, buffers, flags and other configuration registers held. -/
def Obligations.ExchangeForgetsTheEarlierOne : Prop :=
  ∀ (s s' : State) (id ins : Byte) (p : List Byte) (wait : Word40),
    Memory.wf s.rx.mem → Memory.wf s.tx.mem → Memory.wf s'.rx.mem → Memory.wf s'.tx.mem →
    s.xstate = .idle → s'.xstate = .idle → s.takes p → s'.cfg.ready = true →
    s.params = s'.params → s.cfg.cap = s'.cfg.cap → s.line = s'.line →
    match exec (.xchg id ins p wait) s, exec (.xchg id ins p wait) s' with
    | .next t, .next t' => t.resp = t'.resp ∧ t.req = t'.req ∧ t.flags = t'.flags ∧
        t.xstate = t'.xstate ∧ t.line = t'.line ∧ t.result = t'.result ∧
        t.policy.attempt = t'.policy.attempt ∧ t.rx.len = t'.rx.len ∧ t.rxBytes = t'.rxBytes ∧
        t.tx.len = t'.tx.len ∧ t.txBytes = t'.txBytes
    | .fault r, .fault r' => r = r'
    | _, _ => False

/-- R159, R146, R145, R151, R152, R154, R81, R220: a status frame with any bytes before it, as long as its header is
the first, delivered in any number of pieces, no gap longer than the wait, and itself no longer than the buffer, ends
the exchange with the outcome CLASSIFY gives and the frame's fields in the response registers: StatusError for an error
byte, else WrongId for another identifier, else Success, whatever the instruction byte. In the buffer stands the frame,
behind what was still kept of the bytes before it. -/
def Obligations.PiecesOfAStatusFrameDecodeAsOne : Prop :=
  ∀ (s : State) (id ins rid st err : Byte) (p params pre fr : List Byte) (wait : Word40)
    (chunks : List Chunk) (c : Word16),
    Inv s → s.takes p → s.line.silent → s.line.replies = [⟨true, chunks⟩] →
    fr = frameOf rid st (err :: params) → c = crc16 (fr.take (fr.length - 2)) →
    (chunks.map (·.bytes)).flatten = pre ++ fr → hdrfind (pre ++ fr) = some pre.length →
    (∀ c ∈ chunks, c.gap ≤ wait.toNat) → payloadFits (err :: params) = true →
    fr.length ≤ s.cfg.cap →
    ∃ t kept, exec (.xchg id ins p wait) s = .next t ∧
      t.resp = ⟨statusOutcome id rid err, true, rid, st, err, params, c, c⟩ ∧
      kept <:+ pre ∧ t.rxBytes = kept ++ fr

/-- R24, R262, R152: a status frame that is pending when an exchange starts is read as its response, whatever
it answers. (That W.STATUS is what makes the frame pending is the model's meaning for that row: log 9.) -/
def Obligations.PendingFrameAnswersTheNextExchange : Prop :=
  ∀ (s : State) (id ins rid err : Byte) (p params fr : List Byte) (wait : Word40) (c : Word16),
    Inv s → s.takes p → s.line.silent → s.line.replies = [] →
    payloadFits (err :: params) = true →
    fr = frameOf rid s.params.codes.status (err :: params) →
    c = crc16 (fr.take (fr.length - 2)) → fr.length ≤ s.cfg.cap →
    ∃ u t, exec (.wStatus rid err params) s = .next u ∧
      exec (.xchg id ins p wait) u = .next t ∧
      t.resp = ⟨statusOutcome id rid err, true, rid, s.params.codes.status, err, params, c, c⟩ ∧
      t.rxBytes = fr ∧ t.line.avail = []

/-- R144, R264, R226, R227: a buffer full to `CAP` with more pending ends the exchange in OversizedData, whatever
it holds; the rest stays to be read. First, a burst whose first `CAP` bytes are a complete, checksum-valid frame.
Second, bytes in any pieces, no gap longer than the wait, that begin with a header whose length field declares more
than `CAP` bytes, be it a genuine frame or a false length, and are more than `CAP` themselves. -/
def Obligations.OverflowPreemptsAValidFrame : Prop :=
  ∀ (s : State) (id ins rid st : Byte) (p q extra stream : List Byte) (wait : Word40) (g : Nat)
    (chunks : List Chunk),
    Inv s → s.takes p → s.line.silent →
    (s.line.replies = [⟨true, [⟨g, frameOf rid st q ++ extra⟩]⟩] → g ≤ wait.toNat →
      payloadFits q = true → (frameOf rid st q).length = s.cfg.cap → extra ≠ [] →
      ∃ t, exec (.xchg id ins p wait) s = .next t ∧ t.resp.outcome = .oversizedData ∧
        t.resp.valid = false ∧ t.rx.len = s.cfg.cap ∧ t.rxBytes = frameOf rid st q ∧
        t.line.avail = extra) ∧
    (s.line.replies = [⟨true, chunks⟩] → (∀ c ∈ chunks, c.gap ≤ wait.toNat) →
      (chunks.map (·.bytes)).flatten = stream → stream.take 4 = [0xFF, 0xFF, 0xFD, 0x00] →
      s.cfg.cap < 7 + ((stream.getD 5 0).toNat + 256 * (stream.getD 6 0).toNat) →
      s.cfg.cap < stream.length →
      ∃ t, exec (.xchg id ins p wait) s = .next t ∧ t.resp.outcome = .oversizedData ∧
        t.resp.cleared ∧ t.rx.len = s.cfg.cap ∧ t.rxBytes = stream.take s.cfg.cap ∧
        t.line.avail ++ (t.line.future.map (·.bytes)).flatten = stream.drop s.cfg.cap)

/-- R220 (NoResponse), R155: a line on which nothing arrives within the wait. What comes later stays on
its way, its gap shortened by the wait (the model's reading of time: log 22). A plan with no reply left
stands for a send that succeeds and brings nothing (log 28). -/
def Obligations.SilenceIsNoResponse : Prop :=
  ∀ (s : State) (id ins : Byte) (p : List Byte) (wait : Word40), Inv s → s.takes p →
    s.line.silent →
    (s.line.replies = [] ∨ (∃ rs, s.line.replies = ⟨true, []⟩ :: rs) ∨
      ∃ g bytes cs rs, s.line.replies = ⟨true, ⟨g, bytes⟩ :: cs⟩ :: rs ∧ wait.toNat < g) →
    ∃ t, exec (.xchg id ins p wait) s = .next t ∧ t.resp.outcome = .noResponse ∧
      t.resp.cleared ∧ t.rx.len = 0 ∧ t.flags = ⟨false, .seeking⟩ ∧ t.xstate = .idle ∧
      (∀ g bytes cs rs, s.line.replies = ⟨true, ⟨g, bytes⟩ :: cs⟩ :: rs →
        t.line.future = ⟨g - wait.toNat, bytes⟩ :: cs)

/-- R223, R150: when `T.send` reports fail the exchange ends in NoResponse and nothing is read: what is
pending and on its way stays, byte for byte. -/
def Obligations.FailedSendIsNoResponse : Prop :=
  ∀ (s : State) (id ins : Byte) (p : List Byte) (wait : Word40) (r : Reply) (rs : List Reply),
    Inv s → s.takes p → s.line.replies = r :: rs → r.ok = false →
    ∃ t, exec (.xchg id ins p wait) s = .next t ∧ t.resp.outcome = .noResponse ∧
      t.resp.cleared ∧ t.xstate = .idle ∧ t.flags = ⟨false, .seeking⟩ ∧ t.rx.len = 0 ∧
      t.line.avail ++ (t.line.future.map (·.bytes)).flatten =
        s.line.avail ++ (s.line.future.map (·.bytes)).flatten ∧
      t.line.balk = s.line.balk ∧ t.line.replies = rs

/-- R155, R220 (IncompleteData, NoResponse): a proper prefix of a frame and then silence. With the header
there, IncompleteData and the partial frame in the buffer; without it, NoResponse although bytes
arrived. -/
def Obligations.PartialFrameThenSilence : Prop :=
  ∀ (s : State) (id ins rid st : Byte) (p q : List Byte) (wait : Word40) (g k : Nat),
    Inv s → s.takes p → s.line.silent → payloadFits q = true →
    k < (frameOf rid st q).length → k ≤ s.cfg.cap → g ≤ wait.toNat →
    s.line.replies = [⟨true, [⟨g, (frameOf rid st q).take k⟩]⟩] →
    ∃ t, exec (.xchg id ins p wait) s = .next t ∧ t.resp.cleared ∧
      t.rxBytes = (frameOf rid st q).take k ∧
      (4 ≤ k → t.resp.outcome = .incompleteData ∧ t.flags = ⟨true, .partialFrame⟩) ∧
      (k < 4 → t.resp.outcome = .noResponse ∧ t.flags = ⟨false, .seeking⟩)

/-- R153, R222, R152: a frame with a length field below 3, and a checksum-valid frame with empty content, end
the exchange with `MALFORMED_OUTCOME`, whatever it is. The first latches nothing; the second latches identifier,
instruction byte and its own checksum. -/
def Obligations.MalformedFramesEndWithTheParameter : Prop :=
  ∀ (s : State) (id ins rid st len : Byte) (p pad fr : List Byte) (wait : Word40) (g : Nat)
    (c : Word16),
    Inv s → s.takes p → s.line.silent → g ≤ wait.toNat →
    (len.toNat < 3 → pad.length = len.toNat →
      s.line.replies = [⟨true, [⟨g, [0xFF, 0xFF, 0xFD, 0x00, rid, len, 0x00] ++ pad⟩]⟩] →
      ∃ t, exec (.xchg id ins p wait) s = .next t ∧ t.resp.outcome = s.params.malformed ∧
        t.resp.cleared) ∧
    (fr = frameOf rid st [] → c = crc16 (fr.take (fr.length - 2)) →
      s.line.replies = [⟨true, [⟨g, fr⟩]⟩] →
      ∃ t, exec (.xchg id ins p wait) s = .next t ∧
        t.resp = ⟨s.params.malformed, true, rid, st, 0, [], c, c⟩)

/-- R220 (WrongChecksum), R135, R129, R152: one flipped bit outside header and length field ends the exchange
in WrongChecksum with the fields of the frame as it arrived, `fr`, latched: identifier, instruction byte, error
byte and parameters of the de-stuffed content, the computed and the received checksum, which differ. -/
def Obligations.CorruptFrameIsWrongChecksum : Prop :=
  ∀ (s : State) (id ins rid st b : Byte) (p q pre post fr content : List Byte) (wait : Word40)
    (g k : Nat),
    Inv s → s.takes p → s.line.silent → g ≤ wait.toNat → payloadFits q = true → k < 8 →
    frameOf rid st q = pre ++ b :: post → 4 ≤ pre.length → pre.length ≠ 5 → pre.length ≠ 6 →
    (frameOf rid st q).length ≤ s.cfg.cap → fr = pre ++ (b ^^^ (1#8 <<< k)) :: post →
    content = destuff ((fr.drop 8).take (fr.length - 10)) →
    s.line.replies = [⟨true, [⟨g, fr⟩]⟩] →
    ∃ t, exec (.xchg id ins p wait) s = .next t ∧
      t.resp = { outcome := .wrongChecksum, valid := true, id := fr.getD 4 0, instr := fr.getD 7 0,
                 err := content.headD 0, params := content.drop 1,
                 crcCalc := crc16 (fr.take (fr.length - 2)),
                 crcWire := joinU16 (fr.getD (fr.length - 2) 0) (fr.getD (fr.length - 1) 0) } ∧
      t.resp.crcCalc ≠ t.resp.crcWire ∧ t.rxBytes = fr

/-- R142, R145, R151, R156: one pass of the drain loop takes at most `QUOTA` bytes, `new`, off the channel and appends
them. Then it ends the exchange, with an outcome and all of the buffer, `b`, left in place; or it goes on Draining with
none: without a header in `b`, with the last three bytes of `b` (all, where there are fewer) and `HDRSEEN` as it was; or
with everything of `b` from its lowest header on. -/
def Obligations.DrainPassEndsOrKeepsAHeader : Prop :=
  ∀ s t : State, Memory.wf s.rx.mem → s.params.malformed ≠ .none → s.resp.outcome = .none →
    t = drainPass s →
    ∃ new b : List Byte, new.length ≤ quota s.cfg.cap ∧ b = s.rxBytes ++ new ∧
      s.line.avail ++ (s.line.future.map (·.bytes)).flatten =
        new ++ (t.line.avail ++ (t.line.future.map (·.bytes)).flatten) ∧
      ((t.xstate = .idle ∧ t.resp.outcome ≠ .none ∧ t.rxBytes = b) ∨
       (t.xstate = .draining ∧ t.resp = s.resp ∧
        ((t.flags = { s.flags with rstate := .seeking } ∧ hdrfind b = none ∧
            t.rxBytes = b.drop (b.length - 3)) ∨
         (∃ h, t.flags = ⟨true, .partialFrame⟩ ∧ hdrfind b = some h ∧ t.rxBytes = b.drop h ∧
            t.rxBytes.take 4 = [0xFF, 0xFF, 0xFD, 0x00]))))

/-- R46 to R52 (a), (b): `T.read_one` takes the oldest byte of what is pending and still to arrive, each
once and in order; no other call loses, doubles or reorders one: `T.send` adds the answer at the end, and a
wait adds a byte only where nothing is left but what the line delivers for ever. A channel that is ready stays
so through every call but `T.read_one`. The model's choices: the answers as a plan, each reply's chunks joining
what is to come (log 3); a send beyond the plan succeeds and brings nothing (log 28); the bytes of an endless line
come round and round (log 4); a read that answers none loses nothing (log 35). -/
def Obligations.TransportDeliversInOrder : Prop :=
  ∀ (l : Transport) (coming : Transport → List Byte),
    coming = (fun l => l.avail ++ (l.future.map (·.bytes)).flatten) →
    (∀ b, l.readOne.1 = some b → coming l = b :: coming l.readOne.2) ∧
    (l.readOne.1 = none → coming l.readOne.2 = coming l) ∧
    coming l.readyNow.2 = coming l ∧
    (∀ t, coming (l.readyWithin t).2 = coming l ∨
      ∃ b bs, l.babble = b :: bs ∧ coming l = [] ∧ (l.readyWithin t).1 = true ∧
        coming (l.readyWithin t).2 = [b] ∧ (l.readyWithin t).2.babble = bs ++ [b]) ∧
    (∀ frame, (l.send frame).2.sent = l.sent ++ [frame] ∧
      (l.replies = [] → (l.send frame).1 = true ∧ coming (l.send frame).2 = coming l) ∧
      (∀ r rs, l.replies = r :: rs → (l.send frame).1 = r.ok ∧ coming (l.send frame).2 =
        coming l ++ (if r.ok then (r.chunks.map (·.bytes)).flatten else []))) ∧
    (∀ baud bits stop parity, coming (l.configure baud bits stop parity).2 = coming l) ∧
    (∀ baud, coming (l.setBaud baud) = coming l) ∧
    (l.readyNow.1 = true →
      l.readyNow.2.readyNow.1 = true ∧
      (∀ t, (l.readyNow.2.readyWithin t).1 = true ∧
        (l.readyNow.2.readyWithin t).2.readyNow.1 = true) ∧
      (∀ frame, (l.readyNow.2.send frame).2.readyNow.1 = true) ∧
      (∀ baud bits stop parity, (l.readyNow.2.configure baud bits stop parity).2.readyNow.1 = true) ∧
      ∀ baud, (l.readyNow.2.setBaud baud).readyNow.1 = true)

/-- R54: in every state every instruction answers a next state, but for one case: an exchange on a line
that delivers bytes for ever may not end (R157, R263; log 4). None is without a meaning. -/
def Obligations.OnlyAnEndlessLineStopsTheMachine : Prop :=
  ∀ (i : Instr) (s : State), (∃ t, exec i s = .next t) ∨
    (exec i s = .fault .exchangeNeverEnds ∧ s.line.babble ≠ [])

/-- R263, R157: a line that delivers bytes other than `FD`, so no header, for ever holds the block in
Draining for ever: the model's stuck state (log 4). -/
def Obligations.HeaderFreeBabbleNeverEnds : Prop :=
  ∀ (s : State) (id ins : Byte) (p : List Byte) (wait : Word40), Inv s → s.takes p →
    s.line.avail = [] → s.line.future = [] → s.line.lag = [] → s.line.balk = [] →
    s.line.replies = [] → s.line.babble ≠ [] → (∀ b ∈ s.line.babble, b ≠ 0xFD) →
    exec (.xchg id ins p wait) s = .fault .exchangeNeverEnds

/-! ## Device Operation Layer -/

/-- R84, R186, R192: on a line that goes quiet every call but CONFIGURE completes: it sends the frame of
the command it expands to, in each attempt, the block's result is the exchange's outcome, and the device
layer answers that outcome, with no value unless it is a read; a read's Success may become
WrongParameter. `m` and `n` are passed on unchanged: the wait is `WAITEFF(m)`, the attempts are at most `ITERS(n)`,
one in the single-shot form. The calls: PING, READ, WRITE, REGWRITE, ACTION, FRESET, REBOOT, and GET_ and SET_
of torque_enable, delay_time, operating_mode, baud_rate, GET_ of position, velocity, current, temperature,
drive_mode, in both forms. The model's choices: no value without Success (log 16), the result bytes
(log 11). (A SET_delay_time of 511 or more expands to nothing by default: see
`DelayTimeThatDoesNotFitIsRefused`.) -/
def Obligations.CallsSendTheirFrameAndReport : Prop :=
  ∀ (s : State) (i j : Instr) (f : Form) (id ins mult iters : Byte) (p : List Byte), Inv s →
    expand s.params s.cfg.waitUs i = some j → j.request = some (id, ins, p) →
    i.policy = some (f, mult, iters) → s.takes p → s.line.goesQuiet →
    ∃ t n, exec i s = .next t ∧ 1 ≤ n ∧ t.policy.attempt.toNat = n ∧ t.xstate = .idle ∧
      n ≤ (if f = .single then 1 else if iters = 0 then 5 else iters.toNat) ∧
      t.req = ⟨id, ins, p, waitEff s.cfg.waitUs mult⟩ ∧
      t.line.sent = s.line.sent ++ List.replicate n (frameOf id ins p) ∧
      t.resp.outcome.isExchange = true ∧ t.result = ⟨t.resp.outcome, respData t⟩ ∧
      (i.isRead = false ∨ t.resp.outcome ≠ .success → t.device = ⟨t.resp.outcome, .none⟩) ∧
      (i.isRead = true → t.resp.outcome = .success →
        t.device.code = .success ∨ t.device = ⟨.wrongParameter, .none⟩) ∧
      ExchangeFrame (frameOf id ins p).length s t

/-- R84, R189 to R207: the commands the calls issue, operand by operand, in both forms: XCHGR with `m` and `n`,
or XCHG with `wait = WAITEFF(m)` (R178). Each of the nine GETs is the READ of its row's address and width (R196),
each SET the WRITE of what its rule writes at its row. An accessor request for any quantity of the map is that
READ with the value decoded, or that WRITE; a SET whose value has no encoding is not issued. (The model's choices:
accessor requests, the Refused of a value without encoding, and the free conversion of position, velocity and
current, log 34; how long the delay times are that fit, log 14; that GET_velocity and GET_current read the present rows,
log 36.) A SET of temperature writes the number, little-endian at the row's width; a SET of drive mode writes one byte
with the three masked bits as the flags say. -/
def Obligations.CallsExpandToTheTableCommands : Prop :=
  ∀ (c : Config.Params) (w : Word32) (f : Form) (id m n : Byte),
    (∀ code payload, issue .retried w id code payload m n = .xchgr id code payload m n ∧
      issue .single w id code payload m n = .xchg id code payload (waitEff w m)) ∧
    expand c w (.ping f id m n) = some (issue f w id c.codes.ping [] m n) ∧
    (∀ addr len, expand c w (.read f id addr len m n) =
      some (issue f w id c.codes.read [lo8 addr, hi8 addr, lo8 len, hi8 len] m n)) ∧
    (∀ addr data, expand c w (.write f id addr data m n) =
      some (issue f w id c.codes.write (lo8 addr :: hi8 addr :: data) m n)) ∧
    (∀ addr data, expand c w (.regwrite f id addr data m n) =
      some (issue f w id c.codes.regWrite (lo8 addr :: hi8 addr :: data) m n)) ∧
    expand c w (.action f id m n) = some (issue f w id c.codes.action [] m n) ∧
    (∀ mode, expand c w (.freset f id mode m n) =
      some (issue f w id c.codes.factoryReset [mode] m n)) ∧
    expand c w (.reboot f id m n) = some (issue f w id c.codes.reboot [] m n) ∧
    (∀ (q : Config.Quantity) (i : Instr), (q, i) ∈ [
        (.torqueEnable, .getTorqueEnable f id m n), (.presentPosition, .getPosition f id m n),
        (.presentVelocity, .getVelocity f id m n), (.presentCurrent, .getCurrent f id m n),
        (.temperature, .getTemperature f id m n), (.delayTime, .getDelayTime f id m n),
        (.driveMode, .getDriveMode f id m n), (.operatingMode, .getOperatingMode f id m n),
        (.baudRate, .getBaudRate f id m n)] →
      expand c w i =
        expand c w (.read f id (c.regmap.row q).addr (widthLen (c.regmap.row q).width) m n) ∧
      ∀ s : State, exec i s = execAccess (.get f q id m n) s) ∧
    (∀ (q : Config.Quantity) (data : List Byte) (v : Value) (i : Instr) (us code : Nat),
      us ≤ 510 → code ≤ 255 → (q, data, v, i) ∈ [
        (.torqueEnable, [0x01], .flag true, .setTorqueEnable f id true m n),
        (.torqueEnable, [0x00], .flag false, .setTorqueEnable f id false m n),
        (.delayTime, [BitVec.ofNat 8 ((us + 1) / 2)], .natural us, .setDelayTime f id us m n),
        (.operatingMode, [BitVec.ofNat 8 code], .natural code,
          .setOperatingMode f id (BitVec.ofNat 8 code) m n),
        (.baudRate, [BitVec.ofNat 8 code], .natural code,
          .setBaudRate f id (BitVec.ofNat 8 code) m n)] →
      expand c w i = expand c w (.write f id (c.regmap.row q).addr data m n) ∧
      encodeQuantity c q v = some data ∧ ∀ s : State, exec i s = execAccess (.set f q id v m n) s) ∧
    (∀ (q : Config.Quantity) (s : State), execAccess (.get f q id m n) s =
      match exec (.read f id (s.params.regmap.row q).addr
          (widthLen (s.params.regmap.row q).width) m n) s with
      | .next t => .next { t with device := match t.device with
          | ⟨.success, .bytes b⟩ => ⟨.success, decodeQuantity s.params q b⟩
          | d => d }
      | o => o) ∧
    (∀ (q : Config.Quantity) (v : Value) (s : State), execAccess (.set f q id v m n) s =
      match encodeQuantity s.params q v with
      | some data => exec (.write f id (s.params.regmap.row q).addr data m n) s
      | none => .next { s with device := ⟨.refused, .none⟩ }) ∧
    (∀ (q : Config.Quantity) (num : Int) (den : Nat), q ∈ [.presentPosition, .goalPosition,
        .presentVelocity, .goalVelocity, .presentCurrent, .goalCurrent] →
      ∃ data, encodeQuantity c q (.rational num den) = some data ∧
        data.length = (widthLen (c.regmap.row q).width).toNat) ∧
    (∀ k : Nat, k < 256 ^ (widthLen c.regmap.temperature.width).toNat →
      ∃ data, encodeQuantity c .temperature (.natural k) = some data ∧
        data.length = (widthLen c.regmap.temperature.width).toNat ∧
        data.foldr (fun b v => b.toNat + 256 * v) 0 = k) ∧
    (∀ f1 f2 f3 : Bool, c.mask1 &&& c.mask2 = 0 → c.mask1 &&& c.mask3 = 0 →
      c.mask2 &&& c.mask3 = 0 →
      ∃ d : Byte, encodeQuantity c .driveMode (.flags f1 f2 f3) = some [d] ∧
        d &&& c.mask1 = (if f1 then c.mask1 else 0) ∧
        d &&& c.mask2 = (if f2 then c.mask2 else 0) ∧
        d &&& c.mask3 = (if f3 then c.mask3 else 0))

/-- R190, R192: an answered READ yields the parameters when there are as many as asked for; else
WrongParameter, after one attempt, with `OUTCOME` Success. -/
def Obligations.AnsweredReadYieldsParametersOrWrongParameter : Prop :=
  ∀ (s : State) (f : Form) (id st m n : Byte) (addr len : Word16) (b : List Byte) (g : Nat),
    Answered s id st m (readPayload addr len) b g →
    ∃ t, exec (.read f id addr len m n) s = .next t ∧ t.resp.outcome = .success ∧
      t.resp.params = b ∧ t.policy.attempt = 1 ∧
      t.device = (if b.length = len.toNat then ⟨.success, .bytes b⟩
        else ⟨.wrongParameter, .none⟩)

/-- R197 to R207: what an answered accessor yields, the signed values exact (R202); the goal rows, read by an
accessor request (log 34), as the present ones. The model's choices, log 23: for rows wider than one byte,
temperature, operating mode and baud rate code are the unsigned value of all their bytes, where R205 to R207 say
`b[0]`, and delay time, torque enable and drive mode the first byte's; log 36: GET_velocity and GET_current read the
present rows. -/
def Obligations.AnsweredAccessorsYieldTheDecodedValue : Prop :=
  ∀ (s : State) (f : Form) (id st m n b0 b1 b2 b3 : Byte) (g : Nat),
    (∀ e o, (e, o) ∈ [
        (s.params.regmap.presentPosition, exec (.getPosition f id m n) s),
        (s.params.regmap.goalPosition, execAccess (.get f .goalPosition id m n) s)] →
      Answered s id st m (readPayload e.addr 4) [b0, b1, b2, b3] g →
      ∃ t, o = .next t ∧
        t.device = ⟨.success, .rational ((b3 ++ b2 ++ b1 ++ b0).toInt * 88) 1000⟩) ∧
    (∀ e o, (e, o) ∈ [
        (s.params.regmap.presentVelocity, exec (.getVelocity f id m n) s),
        (s.params.regmap.goalVelocity, execAccess (.get f .goalVelocity id m n) s)] →
      (e.width = .four → Answered s id st m (readPayload e.addr 4) [b0, b1, b2, b3] g →
        ∃ t, o = .next t ∧
          t.device = ⟨.success, .rational ((b3 ++ b2 ++ b1 ++ b0).toInt * 229) 1000⟩) ∧
      (e.width = .two → Answered s id st m (readPayload e.addr 2) [b0, b1] g →
        ∃ t, o = .next t ∧
          t.device = ⟨.success, .rational ((b1 ++ b0).toInt * 229) 1000⟩)) ∧
    (∀ e o, (e, o) ∈ [
        (s.params.regmap.presentCurrent, exec (.getCurrent f id m n) s),
        (s.params.regmap.goalCurrent, execAccess (.get f .goalCurrent id m n) s)] →
      (e.width = .two → Answered s id st m (readPayload e.addr 2) [b0, b1] g →
        ∃ t, o = .next t ∧ t.device = ⟨.success, .integer (b1 ++ b0).toInt⟩) ∧
      (e.width = .four → Answered s id st m (readPayload e.addr 4) [b0, b1, b2, b3] g →
        ∃ t, o = .next t ∧ t.device = ⟨.success, .integer (b3 ++ b2 ++ b1 ++ b0).toInt⟩)) ∧
    (∀ e o bs, (e, o) ∈ [
        (s.params.regmap.temperature, exec (.getTemperature f id m n) s),
        (s.params.regmap.operatingMode, exec (.getOperatingMode f id m n) s),
        (s.params.regmap.baudRate, exec (.getBaudRate f id m n) s)] →
      bs.length = (widthLen e.width).toNat →
      Answered s id st m (readPayload e.addr (widthLen e.width)) bs g →
      ∃ t, o = .next t ∧
        t.device = ⟨.success, .natural (bs.foldr (fun b v => b.toNat + 256 * v) 0)⟩) ∧
    (∀ e o v bs, (e, o, v) ∈ [
        (s.params.regmap.delayTime, exec (.getDelayTime f id m n) s, Value.natural (2 * b0.toNat)),
        (s.params.regmap.torqueEnable, exec (.getTorqueEnable f id m n) s, .flag (decide (b0 ≠ 0))),
        (s.params.regmap.driveMode, exec (.getDriveMode f id m n) s,
          .flags (decide (b0 &&& s.params.mask1 ≠ 0)) (decide (b0 &&& s.params.mask2 ≠ 0))
            (decide (b0 &&& s.params.mask3 ≠ 0)))] →
      (b0 :: bs).length = (widthLen e.width).toNat →
      Answered s id st m (readPayload e.addr (widthLen e.width)) (b0 :: bs) g →
      ∃ t, o = .next t ∧ t.device = ⟨.success, v⟩)

/-- R204: a delay time below 511 is written as half of it rounded up and reads back as it is when even,
one more when odd. (The map's row is unsigned with scale 2, as R196 has it: log 23.) -/
def Obligations.DelayTimeReadsBackRoundedUp : Prop :=
  ∀ (c : Config.Params) (us : Nat), c.regmap.wf → us ≤ 510 →
    ∃ b : Byte, delayByte c us = some b ∧ b.toNat = (us + 1) / 2 ∧
      decodeQuantity c .delayTime [b] = .natural (if us % 2 = 0 then us else us + 1)

/-- R204, U9 (log 14): a delay time of 511 or more is refused by default, in every state, and changes
nothing but the device layer's answer. -/
def Obligations.DelayTimeThatDoesNotFitIsRefused : Prop :=
  ∀ (s : State) (f : Form) (id m n : Byte) (us : Nat), 511 ≤ us →
    s.params.delayOverflow = .refuse →
    exec (.setDelayTime f id us m n) s = .next { s with device := ⟨.refused, .none⟩ }

/-- R211: on a line that goes quiet CONFIGURE completes; on Success the transport's rate is the target
rate; whatever happens, the other configuration registers stay. The model's choices: that it may end in Refused,
for a delay time that does not fit (log 14) or a frame that does not (log 27), and the one form of all its
exchanges (log 21). -/
def Obligations.ConfigureCompletesAtTheTargetRate : Prop :=
  ∀ (s : State) (f : Form) (id opmode : Byte) (targetBaud : Word32) (delayUs : Nat),
    Inv s → s.cfg.ready = true → s.line.goesQuiet →
    ∃ t, exec (.configure f id targetBaud delayUs opmode) s = .next t ∧ t.xstate = .idle ∧
      (t.device.code.isExchange = true ∨ t.device.code = .refused) ∧ t.device.value = .none ∧
      (t.device.code = .success → t.cfg.baud = targetBaud ∧ t.line.baud = targetBaud) ∧
      t.cfg = { s.cfg with baud := t.cfg.baud } ∧ t.params = s.params ∧ t.port = s.port

/-- R211: a sweep in which no ping ends in Success. `u k` is the state before candidate `k`, `v k` the state
after SETBAUD of it, `u (k + 1)` the state after its ping. CONFIGURE ends as the last ping leaves the block, its
outcome the device layer's answer, with the rate set back. With no candidate at all the answer is NoResponse. On a
silent line, for one, every ping was sent as often as its form makes attempts, and the answer is NoResponse. (One
form for all pings, and the answer for an empty list: log 21.) -/
def Obligations.ConfigureRestoresTheRateAfterAFailedSweep : Prop :=
  ∀ (s : State) (f : Form) (id opmode : Byte) (targetBaud : Word32) (delayUs : Nat),
    Inv s → s.cfg.ready = true →
    (∀ u v : Nat → State, s.params.baudCandidates ≠ [] → u 0 = s →
      (∀ k c, s.params.baudCandidates[k]? = some c →
        exec (.setbaud c) (u k) = .next (v k) ∧
        exec (.ping f id 0 0) (v k) = .next (u (k + 1)) ∧ (u (k + 1)).device.code ≠ .success) →
      ∀ t, t = u s.params.baudCandidates.length →
        exec (.configure f id targetBaud delayUs opmode) s = .next { t with
          cfg := s.cfg, line := { t.line with baud := s.cfg.baud }, result := ⟨.success, []⟩ }) ∧
    (s.params.baudCandidates = [] →
      exec (.configure f id targetBaud delayUs opmode) s = .next { s with
        line := { s.line with baud := s.cfg.baud }, result := ⟨.success, []⟩,
        device := ⟨.noResponse, .none⟩ }) ∧
    (s.line.silent → s.line.replies = [] →
      ∃ t, exec (.configure f id targetBaud delayUs opmode) s = .next t ∧
        t.device = ⟨.noResponse, .none⟩ ∧ t.cfg = s.cfg ∧ t.line.baud = s.cfg.baud ∧
        t.line.sent = s.line.sent ++ List.replicate
          ((if f = .single then 1 else 5) * s.params.baudCandidates.length)
          (frameOf id s.params.codes.ping []))

/-- R211, R270: the steps of CONFIGURE. First, for any sweep that succeeds at some candidate `c`: `u k` and `v k` are
the states before and after SETBAUD of candidate `k`, whose ping fails, and `w` the state after the successful
ping. From `w` the five steps run in order, `x j` the state before step `j`, until a device operation fails or all
have run; CONFIGURE ends there, with that operation's outcome and the rate the last SETBAUD set. Second, when the
device answers all five exchanges, at the first candidate: one frame each in this order, and Success. (One form for
all the exchanges: log 21. For a rate `BAUD_CODE` does not list the code is a free value: log 13. A delay time that
does not fit is a failed step: log 14. A send buffer of 14 bytes holds the frames of the four writes whatever their
bytes are.) -/
def Obligations.ConfigureRunsItsStepsInOrder : Prop :=
  ∀ (s : State) (f : Form) (id opmode : Byte) (targetBaud c : Word32) (delayUs : Nat),
    Inv s → s.cfg.ready = true →
    (∀ (before after : List Word32) (u v x : Nat → State) (n : Nat) (steps : List Instr),
      s.params.baudCandidates = before ++ c :: after → u 0 = s →
      (∀ k d, before[k]? = some d →
        exec (.setbaud d) (u k) = .next (v k) ∧
        exec (.ping f id 0 0) (v k) = .next (u (k + 1)) ∧ (u (k + 1)).device.code ≠ .success) →
      exec (.setbaud c) (u before.length) = .next (v before.length) →
      exec (.ping f id 0 0) (v before.length) = .next (x 0) → (x 0).device.code = .success →
      steps = [.setTorqueEnable f id false 0 0,
        .setBaudRate f id (baudCodeOf s.params targetBaud) 0 0, .setbaud targetBaud,
        .setDelayTime f id delayUs 0 0, .setOperatingMode f id opmode 0 0] →
      (∀ j i, j < n → steps[j]? = some i → exec i (x j) = .next (x (j + 1))) →
      (∀ j, j < n → (x j).device.code = .success) →
      n ≤ 5 → (n = 5 ∨ (x n).device.code ≠ .success) →
      exec (.configure f id targetBaud delayUs opmode) s = .next (x n) ∧
      (x n).cfg = { s.cfg with baud := if n ≤ 2 then c else targetBaud } ∧
      (x n).line.baud = if n ≤ 2 then c else targetBaud) ∧
    (∀ (st b : Byte) (cs : List Word32), 14 ≤ s.params.txCap → s.line.silent →
      s.params.baudCandidates = c :: cs → delayByte s.params delayUs = some b →
      s.line.replies = List.replicate 5 ⟨true, [⟨0, frameOf id st [0x00]⟩]⟩ →
      ∃ t, exec (.configure f id targetBaud delayUs opmode) s = .next t ∧
        t.device = ⟨.success, .none⟩ ∧ t.cfg = { s.cfg with baud := targetBaud } ∧
        t.line.baud = targetBaud ∧
        t.line.sent = s.line.sent ++ [
          frameOf id s.params.codes.ping [],
          frameOf id s.params.codes.write (writePayload s.params.regmap.torqueEnable.addr [0x00]),
          frameOf id s.params.codes.write (writePayload s.params.regmap.baudRate.addr
            [baudCodeOf s.params targetBaud]),
          frameOf id s.params.codes.write (writePayload s.params.regmap.delayTime.addr [b]),
          frameOf id s.params.codes.write (writePayload s.params.regmap.operatingMode.addr
            [opmode])])
end

