-- ==== Sys2Proof/Laws/Memory.lean ====
section
/-!
SUPPORT. The laws of a buffer: read after write, the canonical form is kept, and equal reads mean equal
buffers.
-/

namespace Sys2Proof.Machine

/-! ## The canonical form -/

@[simp] theorem Memory.wf_nil : Memory.wf [] := ⟨List.Pairwise.nil, by simp⟩

theorem Memory.wf_tail {c : Host.Cell} {m : Memory} (h : Memory.wf (c :: m)) : Memory.wf m :=
  ⟨(List.pairwise_cons.mp h.1).2, fun d hd => h.2 d (List.mem_cons_of_mem _ hd)⟩

theorem Memory.wf_head_lt {c : Host.Cell} {m : Memory} (h : Memory.wf (c :: m)) :
    ∀ d ∈ m, c.1 < d.1 := (List.pairwise_cons.mp h.1).1

theorem Memory.wf_head_ne {c : Host.Cell} {m : Memory} (h : Memory.wf (c :: m)) : c.2 ≠ 0 :=
  h.2 c (List.mem_cons_self ..)

theorem Memory.wf_cons {c : Host.Cell} {m : Memory} (hm : Memory.wf m) (hlt : ∀ d ∈ m, c.1 < d.1)
    (hne : c.2 ≠ 0) : Memory.wf (c :: m) :=
  ⟨List.pairwise_cons.mpr ⟨hlt, hm.1⟩, by
    intro d hd
    rcases List.mem_cons.mp hd with rfl | hd
    · exact hne
    · exact hm.2 d hd⟩

/-! ## Reading -/

@[simp] theorem Memory.read_nil (a : Nat) : Memory.read [] a = 0 := rfl

theorem Memory.read_cons (c : Host.Cell) (m : Memory) (a : Nat) :
    Memory.read (c :: m) a = if c.1 = a then c.2 else Memory.read m a := rfl

/-- An offset that no entry lists reads `00`. -/
theorem Memory.read_unlisted {m : Memory} {a : Nat} (h : ∀ c ∈ m, c.1 ≠ a) : m.read a = 0 := by
  induction m with
  | nil => rfl
  | cons c m ih =>
    rw [Memory.read_cons, if_neg (h c (List.mem_cons_self ..))]
    exact ih fun d hd => h d (List.mem_cons_of_mem _ hd)

/-- In the canonical form the entries are exactly the offsets that do not read `00`. -/
theorem Memory.mem_of_read_ne {m : Memory} {a : Nat} (h : m.read a ≠ 0) : (a, m.read a) ∈ m := by
  induction m with
  | nil => simp at h
  | cons c m ih =>
    rw [Memory.read_cons] at h ⊢
    by_cases hc : c.1 = a
    · subst hc; simp
    · rw [if_neg hc] at h ⊢
      exact List.mem_cons_of_mem _ (ih h)

theorem Memory.read_mem {m : Memory} (hm : Memory.wf m) {c : Host.Cell} (hc : c ∈ m) :
    m.read c.1 = c.2 := by
  induction m with
  | nil => simp at hc
  | cons d m ih =>
    rw [Memory.read_cons]
    rcases List.mem_cons.mp hc with rfl | hc
    · simp
    · rw [if_neg (Nat.ne_of_lt (Memory.wf_head_lt hm c hc))]
      exact ih (Memory.wf_tail hm) hc

/-! ## Writing -/

theorem Memory.mem_write {m : Memory} {a : Nat} {b : Byte} {c : Host.Cell}
    (h : c ∈ m.write a b) : c = (a, b) ∨ c ∈ m := by
  induction m with
  | nil =>
    unfold Memory.write at h
    split at h <;> simp_all
  | cons d m ih =>
    unfold Memory.write at h
    split at h
    · rcases List.mem_cons.mp h with rfl | h
      · exact .inr (List.mem_cons_self ..)
      · exact (ih h).imp_right (List.mem_cons_of_mem _)
    · split at h <;> split at h
      · exact .inr (List.mem_cons_of_mem _ h)
      · rcases List.mem_cons.mp h with rfl | h
        · exact .inl rfl
        · exact .inr (List.mem_cons_of_mem _ h)
      · exact .inr h
      · rcases List.mem_cons.mp h with rfl | h
        · exact .inl rfl
        · exact .inr h

/-- A write keeps the canonical form. -/
theorem Memory.write_wf {m : Memory} (hm : Memory.wf m) (a : Nat) (b : Byte) :
    Memory.wf (m.write a b) := by
  induction m with
  | nil =>
    unfold Memory.write
    split
    · exact Memory.wf_nil
    · exact Memory.wf_cons Memory.wf_nil (by simp) ‹_›
  | cons d m ih =>
    have hd := Memory.wf_head_lt hm
    unfold Memory.write
    split
    · refine Memory.wf_cons (ih (Memory.wf_tail hm)) ?_ (Memory.wf_head_ne hm)
      intro e he
      rcases Memory.mem_write he with rfl | he
      · assumption
      · exact hd e he
    · split <;> split
      · exact Memory.wf_tail hm
      · refine Memory.wf_cons (Memory.wf_tail hm) ?_ ‹_›
        intro e he
        have := hd e he
        show a < e.1
        omega
      · exact hm
      · refine Memory.wf_cons hm ?_ ‹_›
        intro e he
        show a < e.1
        rcases List.mem_cons.mp he with rfl | he
        · omega
        · have := hd e he
          omega

/-- Read after write to the same offset. -/
theorem Memory.read_write_same {m : Memory} (hm : Memory.wf m) (a : Nat) (b : Byte) :
    (m.write a b).read a = b := by
  induction m with
  | nil =>
    unfold Memory.write
    split
    · simp_all
    · simp [Memory.read_cons]
  | cons d m ih =>
    have hd := Memory.wf_head_lt hm
    unfold Memory.write
    split
    · rw [Memory.read_cons, if_neg (by omega)]
      exact ih (Memory.wf_tail hm)
    · split <;> split
      · rename_i hb
        rw [hb]
        exact Memory.read_unlisted fun e he => by have := hd e he; omega
      · simp [Memory.read_cons]
      · rename_i hb
        rw [hb]
        refine Memory.read_unlisted fun e he => ?_
        rcases List.mem_cons.mp he with rfl | he
        · omega
        · have := hd e he; omega
      · simp [Memory.read_cons]

/-- A write leaves every other offset alone. -/
theorem Memory.read_write_other (m : Memory) {a a' : Nat} (h : a' ≠ a) (b : Byte) :
    (m.write a b).read a' = m.read a' := by
  induction m with
  | nil =>
    unfold Memory.write
    split
    · rfl
    · simp [Memory.read_cons, h.symm]
  | cons d m ih =>
    unfold Memory.write
    split
    · rw [Memory.read_cons, Memory.read_cons, ih]
    · split <;> split
      · rw [Memory.read_cons, if_neg (by omega)]
      · rw [Memory.read_cons, Memory.read_cons, if_neg h.symm, if_neg (by omega)]
      · rfl
      · rw [Memory.read_cons, if_neg h.symm]

/-! ## Byte lists -/

@[simp] theorem Memory.readBytes_length (m : Memory) (a n : Nat) :
    (m.readBytes a n).length = n := by
  induction n generalizing a with
  | zero => rfl
  | succ n ih => simp [Memory.readBytes, ih]

theorem Memory.readBytes_get (m : Memory) (a n i : Nat) (h : i < n) :
    (m.readBytes a n)[i]? = some (m.read (a + i)) := by
  induction n generalizing a i with
  | zero => omega
  | succ n ih =>
    cases i with
    | zero => simp [Memory.readBytes]
    | succ i =>
      simp only [Memory.readBytes, List.getElem?_cons_succ]
      rw [ih (a + 1) i (by omega)]
      congr 2
      omega

theorem Memory.readBytes_append (m : Memory) (a n k : Nat) :
    m.readBytes a (n + k) = m.readBytes a n ++ m.readBytes (a + n) k := by
  induction n generalizing a with
  | zero => simp [Memory.readBytes]
  | succ n ih =>
    rw [show n + 1 + k = (n + k) + 1 by omega]
    simp only [Memory.readBytes, ih, List.cons_append]
    rw [show a + 1 + n = a + (n + 1) by omega]

theorem Memory.readBytes_congr {m m' : Memory} {a n : Nat}
    (h : ∀ i, a ≤ i → i < a + n → m.read i = m'.read i) : m.readBytes a n = m'.readBytes a n := by
  induction n generalizing a with
  | zero => rfl
  | succ n ih =>
    simp only [Memory.readBytes]
    rw [h a (by omega) (by omega), ih fun i h1 h2 => h i (by omega) (by omega)]

theorem Memory.writeBytes_wf {m : Memory} (hm : Memory.wf m) (a : Nat) (l : List Byte) :
    Memory.wf (m.writeBytes a l) := by
  induction l generalizing m a with
  | nil => exact hm
  | cons b l ih => exact ih (Memory.write_wf hm a b) (a + 1)

theorem Memory.mem_writeBytes {m : Memory} {a : Nat} {l : List Byte} {c : Host.Cell}
    (h : c ∈ m.writeBytes a l) : c ∈ m ∨ a ≤ c.1 ∧ c.1 < a + l.length := by
  induction l generalizing m a with
  | nil => exact .inl h
  | cons b l ih =>
    rcases ih h with h | h
    · rcases Memory.mem_write h with rfl | h
      · exact .inr (by simp)
      · exact .inl h
    · exact .inr (by simp only [List.length_cons]; omega)

/-- A write of a list leaves the offsets outside it alone. -/
theorem Memory.read_writeBytes_other (m : Memory) {a i : Nat} (l : List Byte)
    (h : i < a ∨ a + l.length ≤ i) : (m.writeBytes a l).read i = m.read i := by
  induction l generalizing m a with
  | nil => rfl
  | cons b l ih =>
    simp only [List.length_cons] at h
    rw [Memory.writeBytes, ih _ (by omega), Memory.read_write_other _ (by omega)]

/-- What was written is read back. -/
theorem Memory.read_writeBytes_at {m : Memory} (hm : Memory.wf m) (a i : Nat) (l : List Byte)
    (h : i < l.length) : some ((m.writeBytes a l).read (a + i)) = l[i]? := by
  induction l generalizing m a i with
  | nil => simp at h
  | cons b l ih =>
    cases i with
    | zero =>
      rw [Memory.writeBytes, Memory.read_writeBytes_other _ _ (by omega), Nat.add_zero,
        Memory.read_write_same hm]
      rfl
    | succ i =>
      have := ih (Memory.write_wf hm a b) (a + 1) i (by simpa using h)
      rw [show a + 1 + i = a + (i + 1) by omega] at this
      simpa [Memory.writeBytes] using this

/-- `MemRead` after `MemWrite` of the same list. -/
theorem Memory.readBytes_writeBytes {m : Memory} (hm : Memory.wf m) (a : Nat) (l : List Byte) :
    (m.writeBytes a l).readBytes a l.length = l := by
  apply List.ext_getElem?
  intro i
  by_cases h : i < l.length
  · rw [Memory.readBytes_get _ _ _ _ h, Memory.read_writeBytes_at hm _ _ _ h]
  · rw [List.getElem?_eq_none (by simpa using h), List.getElem?_eq_none (by omega)]

/-! ## Zeroing -/

theorem Memory.zeroTo_wf {m : Memory} (hm : Memory.wf m) (n : Nat) : Memory.wf (m.zeroTo n) :=
  ⟨hm.1.sublist List.filter_sublist, fun c hc => hm.2 c (List.mem_of_mem_filter hc)⟩

theorem Memory.mem_zeroTo {m : Memory} {n : Nat} {c : Host.Cell} :
    c ∈ m.zeroTo n ↔ c ∈ m ∧ n ≤ c.1 := by
  simp [Memory.zeroTo, List.mem_filter]

/-- After zeroing, the offsets below the bound read `00` and the others as before. -/
theorem Memory.read_zeroTo (m : Memory) (n a : Nat) :
    (m.zeroTo n).read a = if a < n then 0 else m.read a := by
  induction m with
  | nil => simp [Memory.zeroTo]
  | cons c m ih =>
    unfold Memory.zeroTo at ih ⊢
    rw [List.filter_cons]
    split
    · rename_i h
      rw [Memory.read_cons, ih, Memory.read_cons]
      have : n ≤ c.1 := by simpa using h
      by_cases hc : c.1 = a
      · simp [hc, show ¬ a < n by omega]
      · simp [hc]
    · rename_i h
      have : ¬ n ≤ c.1 := by simpa using h
      rw [ih, Memory.read_cons]
      by_cases ha : a < n
      · simp [ha]
      · simp [ha, show c.1 ≠ a by omega]

theorem Memory.zeroTo_eq_nil {m : Memory} {n : Nat} (h : ∀ c ∈ m, c.1 < n) : m.zeroTo n = [] := by
  simp only [Memory.zeroTo, List.filter_eq_nil_iff, decide_eq_true_eq]
  intro c hc
  have := h c hc
  omega

/-! ## Equal reads, equal buffers -/

/-- The canonical form is unique: buffers that read alike are equal data. -/
theorem Memory.ext_read {m m' : Memory} (hm : Memory.wf m) (hm' : Memory.wf m')
    (h : ∀ a, m.read a = m'.read a) : m = m' := by
  have sub : ∀ {m m' : Memory}, Memory.wf m → (∀ a, m.read a = m'.read a) →
      ∀ c ∈ m, c ∈ m' := by
    intro m m' hm h c hc
    have h1 := Memory.read_mem hm hc
    have h2 : m'.read c.1 = c.2 := by rw [← h, h1]
    have := Memory.mem_of_read_ne (m := m') (a := c.1) (by rw [h2]; exact hm.2 c hc)
    rwa [h2] at this
  refine List.Perm.eq_of_pairwise (le := fun a b : Host.Cell => a.1 < b.1) ?_ hm.1 hm'.1 ?_
  · intro a b _ _ h1 h2
    omega
  · refine (List.perm_ext_iff_of_nodup ?_ ?_).mpr fun c =>
      ⟨sub hm h c, sub hm' (fun a => (h a).symm) c⟩
    · exact hm.1.imp fun {a b} hab => by rintro rfl; omega
    · exact hm'.1.imp fun {a b} hab => by rintro rfl; omega

end Sys2Proof.Machine
end

