-- ==== Sys2Proof/Laws/State.lean ====
section
/-!
SUPPORT. One lemma per named update of the state and per field of `State`: what the update writes, and
that it leaves the others. Later proofs cite these and unfold no record update.
-/

namespace Sys2Proof.Machine

section

variable (s : State)

/-! `present` -/

@[simp] theorem present_params (code : Code) (data : List Byte) :
    (present code data s).params =
      s.params := rfl

@[simp] theorem present_req (code : Code) (data : List Byte) :
    (present code data s).req =
      s.req := rfl

@[simp] theorem present_resp (code : Code) (data : List Byte) :
    (present code data s).resp =
      s.resp := rfl

@[simp] theorem present_policy (code : Code) (data : List Byte) :
    (present code data s).policy =
      s.policy := rfl

@[simp] theorem present_xstate (code : Code) (data : List Byte) :
    (present code data s).xstate =
      s.xstate := rfl

@[simp] theorem present_flags (code : Code) (data : List Byte) :
    (present code data s).flags =
      s.flags := rfl

@[simp] theorem present_cfg (code : Code) (data : List Byte) :
    (present code data s).cfg =
      s.cfg := rfl

@[simp] theorem present_rx (code : Code) (data : List Byte) :
    (present code data s).rx =
      s.rx := rfl

@[simp] theorem present_tx (code : Code) (data : List Byte) :
    (present code data s).tx =
      s.tx := rfl

@[simp] theorem present_line (code : Code) (data : List Byte) :
    (present code data s).line =
      s.line := rfl

@[simp] theorem present_port (code : Code) (data : List Byte) :
    (present code data s).port =
      s.port := rfl

@[simp] theorem present_result (code : Code) (data : List Byte) :
    (present code data s).result =
      { code := code, data := data } := rfl

@[simp] theorem present_device (code : Code) (data : List Byte) :
    (present code data s).device =
      s.device := rfl

/-! `refuse` -/

@[simp] theorem refuse_params :
    (refuse s).params = s.params := rfl

@[simp] theorem refuse_req :
    (refuse s).req = s.req := rfl

@[simp] theorem refuse_resp :
    (refuse s).resp = s.resp := rfl

@[simp] theorem refuse_policy :
    (refuse s).policy = s.policy := rfl

@[simp] theorem refuse_xstate :
    (refuse s).xstate = s.xstate := rfl

@[simp] theorem refuse_flags :
    (refuse s).flags = s.flags := rfl

@[simp] theorem refuse_cfg :
    (refuse s).cfg = s.cfg := rfl

@[simp] theorem refuse_rx :
    (refuse s).rx = s.rx := rfl

@[simp] theorem refuse_tx :
    (refuse s).tx = s.tx := rfl

@[simp] theorem refuse_line :
    (refuse s).line = s.line := rfl

@[simp] theorem refuse_port :
    (refuse s).port = s.port := rfl

@[simp] theorem refuse_result :
    (refuse s).result = { code := .refused, data := [] } := rfl

@[simp] theorem refuse_device :
    (refuse s).device = s.device := rfl

/-! `reply` -/

@[simp] theorem reply_params (code : Code) (value : Value) :
    (reply code value s).params =
      s.params := rfl

@[simp] theorem reply_req (code : Code) (value : Value) :
    (reply code value s).req =
      s.req := rfl

@[simp] theorem reply_resp (code : Code) (value : Value) :
    (reply code value s).resp =
      s.resp := rfl

@[simp] theorem reply_policy (code : Code) (value : Value) :
    (reply code value s).policy =
      s.policy := rfl

@[simp] theorem reply_xstate (code : Code) (value : Value) :
    (reply code value s).xstate =
      s.xstate := rfl

@[simp] theorem reply_flags (code : Code) (value : Value) :
    (reply code value s).flags =
      s.flags := rfl

@[simp] theorem reply_cfg (code : Code) (value : Value) :
    (reply code value s).cfg =
      s.cfg := rfl

@[simp] theorem reply_rx (code : Code) (value : Value) :
    (reply code value s).rx = s.rx := rfl

@[simp] theorem reply_tx (code : Code) (value : Value) :
    (reply code value s).tx = s.tx := rfl

@[simp] theorem reply_line (code : Code) (value : Value) :
    (reply code value s).line =
      s.line := rfl

@[simp] theorem reply_port (code : Code) (value : Value) :
    (reply code value s).port =
      s.port := rfl

@[simp] theorem reply_result (code : Code) (value : Value) :
    (reply code value s).result =
      s.result := rfl

@[simp] theorem reply_device (code : Code) (value : Value) :
    (reply code value s).device =
      { code := code, value := value } := rfl

/-! `raiseOutcome` -/

@[simp] theorem raiseOutcome_params (o : Code) :
    (raiseOutcome o s).params = s.params := rfl

@[simp] theorem raiseOutcome_req (o : Code) :
    (raiseOutcome o s).req = s.req := rfl

@[simp] theorem raiseOutcome_resp (o : Code) :
    (raiseOutcome o s).resp =
      { s.resp with outcome := o } := rfl

@[simp] theorem raiseOutcome_policy (o : Code) :
    (raiseOutcome o s).policy = s.policy := rfl

@[simp] theorem raiseOutcome_xstate (o : Code) :
    (raiseOutcome o s).xstate = .idle := rfl

@[simp] theorem raiseOutcome_flags (o : Code) :
    (raiseOutcome o s).flags = s.flags := rfl

@[simp] theorem raiseOutcome_cfg (o : Code) :
    (raiseOutcome o s).cfg = s.cfg := rfl

@[simp] theorem raiseOutcome_rx (o : Code) :
    (raiseOutcome o s).rx = s.rx := rfl

@[simp] theorem raiseOutcome_tx (o : Code) :
    (raiseOutcome o s).tx = s.tx := rfl

@[simp] theorem raiseOutcome_line (o : Code) :
    (raiseOutcome o s).line = s.line := rfl

@[simp] theorem raiseOutcome_port (o : Code) :
    (raiseOutcome o s).port = s.port := rfl

@[simp] theorem raiseOutcome_result (o : Code) :
    (raiseOutcome o s).result = s.result := rfl

@[simp] theorem raiseOutcome_device (o : Code) :
    (raiseOutcome o s).device = s.device := rfl

/-! `encodeInto` -/

@[simp] theorem encodeInto_params (id instr : Byte) (p : List Byte) :
    (encodeInto id instr p s).params =
      s.params := rfl

@[simp] theorem encodeInto_req (id instr : Byte) (p : List Byte) :
    (encodeInto id instr p s).req =
      s.req := rfl

@[simp] theorem encodeInto_resp (id instr : Byte) (p : List Byte) :
    (encodeInto id instr p s).resp =
      s.resp := rfl

@[simp] theorem encodeInto_policy (id instr : Byte) (p : List Byte) :
    (encodeInto id instr p s).policy =
      s.policy := rfl

@[simp] theorem encodeInto_xstate (id instr : Byte) (p : List Byte) :
    (encodeInto id instr p s).xstate =
      s.xstate := rfl

@[simp] theorem encodeInto_flags (id instr : Byte) (p : List Byte) :
    (encodeInto id instr p s).flags =
      s.flags := rfl

@[simp] theorem encodeInto_cfg (id instr : Byte) (p : List Byte) :
    (encodeInto id instr p s).cfg =
      s.cfg := rfl

@[simp] theorem encodeInto_rx (id instr : Byte) (p : List Byte) :
    (encodeInto id instr p s).rx =
      s.rx := rfl

@[simp] theorem encodeInto_tx (id instr : Byte) (p : List Byte) :
    (encodeInto id instr p s).tx =
      { mem := s.tx.mem.writeBytes 0 (frameOf id instr p), len := (frameOf id instr p).length } := rfl

@[simp] theorem encodeInto_line (id instr : Byte) (p : List Byte) :
    (encodeInto id instr p s).line =
      s.line := rfl

@[simp] theorem encodeInto_port (id instr : Byte) (p : List Byte) :
    (encodeInto id instr p s).port =
      s.port := rfl

@[simp] theorem encodeInto_result (id instr : Byte) (p : List Byte) :
    (encodeInto id instr p s).result =
      s.result := rfl

@[simp] theorem encodeInto_device (id instr : Byte) (p : List Byte) :
    (encodeInto id instr p s).device =
      s.device := rfl

/-! `clearRx` -/

@[simp] theorem clearRx_params :
    (clearRx s).params = s.params := rfl

@[simp] theorem clearRx_req :
    (clearRx s).req = s.req := rfl

@[simp] theorem clearRx_resp :
    (clearRx s).resp = s.resp := rfl

@[simp] theorem clearRx_policy :
    (clearRx s).policy = s.policy := rfl

@[simp] theorem clearRx_xstate :
    (clearRx s).xstate = s.xstate := rfl

@[simp] theorem clearRx_flags :
    (clearRx s).flags = s.flags := rfl

@[simp] theorem clearRx_cfg :
    (clearRx s).cfg = s.cfg := rfl

@[simp] theorem clearRx_rx :
    (clearRx s).rx =
      { s.rx with mem := s.rx.mem.zeroTo s.cfg.cap, len := 0, vacated := 0 } := rfl

@[simp] theorem clearRx_tx :
    (clearRx s).tx = s.tx := rfl

@[simp] theorem clearRx_line :
    (clearRx s).line = s.line := rfl

@[simp] theorem clearRx_port :
    (clearRx s).port = s.port := rfl

@[simp] theorem clearRx_result :
    (clearRx s).result = s.result := rfl

@[simp] theorem clearRx_device :
    (clearRx s).device = s.device := rfl

/-! `appendRx` -/

@[simp] theorem appendRx_params (b : Byte) :
    (appendRx b s).params = s.params := rfl

@[simp] theorem appendRx_req (b : Byte) :
    (appendRx b s).req = s.req := rfl

@[simp] theorem appendRx_resp (b : Byte) :
    (appendRx b s).resp = s.resp := rfl

@[simp] theorem appendRx_policy (b : Byte) :
    (appendRx b s).policy = s.policy := rfl

@[simp] theorem appendRx_xstate (b : Byte) :
    (appendRx b s).xstate = s.xstate := rfl

@[simp] theorem appendRx_flags (b : Byte) :
    (appendRx b s).flags = s.flags := rfl

@[simp] theorem appendRx_cfg (b : Byte) :
    (appendRx b s).cfg = s.cfg := rfl

@[simp] theorem appendRx_rx (b : Byte) :
    (appendRx b s).rx =
      { s.rx with mem := s.rx.mem.write s.rx.len b, len := s.rx.len + 1 } := rfl

@[simp] theorem appendRx_tx (b : Byte) :
    (appendRx b s).tx = s.tx := rfl

@[simp] theorem appendRx_line (b : Byte) :
    (appendRx b s).line = s.line := rfl

@[simp] theorem appendRx_port (b : Byte) :
    (appendRx b s).port = s.port := rfl

@[simp] theorem appendRx_result (b : Byte) :
    (appendRx b s).result = s.result := rfl

@[simp] theorem appendRx_device (b : Byte) :
    (appendRx b s).device = s.device := rfl

/-! `compact` -/

@[simp] theorem compact_params (k : Nat) :
    (compact k s).params =
      s.params := by unfold compact; split <;> rfl

@[simp] theorem compact_req (k : Nat) :
    (compact k s).req =
      s.req := by unfold compact; split <;> rfl

@[simp] theorem compact_resp (k : Nat) :
    (compact k s).resp =
      s.resp := by unfold compact; split <;> rfl

@[simp] theorem compact_policy (k : Nat) :
    (compact k s).policy =
      s.policy := by unfold compact; split <;> rfl

@[simp] theorem compact_xstate (k : Nat) :
    (compact k s).xstate =
      s.xstate := by unfold compact; split <;> rfl

@[simp] theorem compact_flags (k : Nat) :
    (compact k s).flags =
      s.flags := by unfold compact; split <;> rfl

@[simp] theorem compact_cfg (k : Nat) :
    (compact k s).cfg =
      s.cfg := by unfold compact; split <;> rfl

@[simp] theorem compact_tx (k : Nat) :
    (compact k s).tx =
      s.tx := by unfold compact; split <;> rfl

@[simp] theorem compact_line (k : Nat) :
    (compact k s).line =
      s.line := by unfold compact; split <;> rfl

@[simp] theorem compact_port (k : Nat) :
    (compact k s).port =
      s.port := by unfold compact; split <;> rfl

@[simp] theorem compact_result (k : Nat) :
    (compact k s).result =
      s.result := by unfold compact; split <;> rfl

@[simp] theorem compact_device (k : Nat) :
    (compact k s).device =
      s.device := by unfold compact; split <;> rfl

/-! `clearFlags` -/

@[simp] theorem clearFlags_params :
    (clearFlags s).params = s.params := rfl

@[simp] theorem clearFlags_req :
    (clearFlags s).req = s.req := rfl

@[simp] theorem clearFlags_resp :
    (clearFlags s).resp = s.resp := rfl

@[simp] theorem clearFlags_policy :
    (clearFlags s).policy = s.policy := rfl

@[simp] theorem clearFlags_xstate :
    (clearFlags s).xstate = s.xstate := rfl

@[simp] theorem clearFlags_flags :
    (clearFlags s).flags =
      { hdrSeen := false, rstate := .seeking } := rfl

@[simp] theorem clearFlags_cfg :
    (clearFlags s).cfg = s.cfg := rfl

@[simp] theorem clearFlags_rx :
    (clearFlags s).rx = s.rx := rfl

@[simp] theorem clearFlags_tx :
    (clearFlags s).tx = s.tx := rfl

@[simp] theorem clearFlags_line :
    (clearFlags s).line = s.line := rfl

@[simp] theorem clearFlags_port :
    (clearFlags s).port = s.port := rfl

@[simp] theorem clearFlags_result :
    (clearFlags s).result = s.result := rfl

@[simp] theorem clearFlags_device :
    (clearFlags s).device = s.device := rfl

/-! `noteSeeking` -/

@[simp] theorem noteSeeking_params :
    (noteSeeking s).params = s.params := rfl

@[simp] theorem noteSeeking_req :
    (noteSeeking s).req = s.req := rfl

@[simp] theorem noteSeeking_resp :
    (noteSeeking s).resp = s.resp := rfl

@[simp] theorem noteSeeking_policy :
    (noteSeeking s).policy = s.policy := rfl

@[simp] theorem noteSeeking_xstate :
    (noteSeeking s).xstate = s.xstate := rfl

@[simp] theorem noteSeeking_flags :
    (noteSeeking s).flags =
      { s.flags with rstate := .seeking } := rfl

@[simp] theorem noteSeeking_cfg :
    (noteSeeking s).cfg = s.cfg := rfl

@[simp] theorem noteSeeking_rx :
    (noteSeeking s).rx = s.rx := rfl

@[simp] theorem noteSeeking_tx :
    (noteSeeking s).tx = s.tx := rfl

@[simp] theorem noteSeeking_line :
    (noteSeeking s).line = s.line := rfl

@[simp] theorem noteSeeking_port :
    (noteSeeking s).port = s.port := rfl

@[simp] theorem noteSeeking_result :
    (noteSeeking s).result = s.result := rfl

@[simp] theorem noteSeeking_device :
    (noteSeeking s).device = s.device := rfl

/-! `notePartial` -/

@[simp] theorem notePartial_params :
    (notePartial s).params = s.params := rfl

@[simp] theorem notePartial_req :
    (notePartial s).req = s.req := rfl

@[simp] theorem notePartial_resp :
    (notePartial s).resp = s.resp := rfl

@[simp] theorem notePartial_policy :
    (notePartial s).policy = s.policy := rfl

@[simp] theorem notePartial_xstate :
    (notePartial s).xstate = s.xstate := rfl

@[simp] theorem notePartial_flags :
    (notePartial s).flags =
      { hdrSeen := true, rstate := .partialFrame } := rfl

@[simp] theorem notePartial_cfg :
    (notePartial s).cfg = s.cfg := rfl

@[simp] theorem notePartial_rx :
    (notePartial s).rx = s.rx := rfl

@[simp] theorem notePartial_tx :
    (notePartial s).tx = s.tx := rfl

@[simp] theorem notePartial_line :
    (notePartial s).line = s.line := rfl

@[simp] theorem notePartial_port :
    (notePartial s).port = s.port := rfl

@[simp] theorem notePartial_result :
    (notePartial s).result = s.result := rfl

@[simp] theorem notePartial_device :
    (notePartial s).device = s.device := rfl

/-! `clearResp` -/

@[simp] theorem clearResp_params :
    (clearResp s).params = s.params := rfl

@[simp] theorem clearResp_req :
    (clearResp s).req = s.req := rfl

@[simp] theorem clearResp_resp :
    (clearResp s).resp =
      { outcome := .none, valid := false, id := 0, instr := 0, err := 0, params := [], crcCalc := 0, crcWire := 0 } := rfl

@[simp] theorem clearResp_policy :
    (clearResp s).policy = s.policy := rfl

@[simp] theorem clearResp_xstate :
    (clearResp s).xstate = s.xstate := rfl

@[simp] theorem clearResp_flags :
    (clearResp s).flags = s.flags := rfl

@[simp] theorem clearResp_cfg :
    (clearResp s).cfg = s.cfg := rfl

@[simp] theorem clearResp_rx :
    (clearResp s).rx = s.rx := rfl

@[simp] theorem clearResp_tx :
    (clearResp s).tx = s.tx := rfl

@[simp] theorem clearResp_line :
    (clearResp s).line = s.line := rfl

@[simp] theorem clearResp_port :
    (clearResp s).port = s.port := rfl

@[simp] theorem clearResp_result :
    (clearResp s).result = s.result := rfl

@[simp] theorem clearResp_device :
    (clearResp s).device = s.device := rfl

/-! `latchRequest` -/

@[simp] theorem latchRequest_params (id instr : Byte) (p : List Byte) (wait : Word40) :
    (latchRequest id instr p wait s).params =
      s.params := rfl

@[simp] theorem latchRequest_req (id instr : Byte) (p : List Byte) (wait : Word40) :
    (latchRequest id instr p wait s).req =
      { id := id, instr := instr, payload := p, wait := wait } := rfl

@[simp] theorem latchRequest_resp (id instr : Byte) (p : List Byte) (wait : Word40) :
    (latchRequest id instr p wait s).resp =
      s.resp := rfl

@[simp] theorem latchRequest_policy (id instr : Byte) (p : List Byte) (wait : Word40) :
    (latchRequest id instr p wait s).policy =
      s.policy := rfl

@[simp] theorem latchRequest_xstate (id instr : Byte) (p : List Byte) (wait : Word40) :
    (latchRequest id instr p wait s).xstate =
      s.xstate := rfl

@[simp] theorem latchRequest_flags (id instr : Byte) (p : List Byte) (wait : Word40) :
    (latchRequest id instr p wait s).flags =
      s.flags := rfl

@[simp] theorem latchRequest_cfg (id instr : Byte) (p : List Byte) (wait : Word40) :
    (latchRequest id instr p wait s).cfg =
      s.cfg := rfl

@[simp] theorem latchRequest_rx (id instr : Byte) (p : List Byte) (wait : Word40) :
    (latchRequest id instr p wait s).rx =
      s.rx := rfl

@[simp] theorem latchRequest_tx (id instr : Byte) (p : List Byte) (wait : Word40) :
    (latchRequest id instr p wait s).tx =
      s.tx := rfl

@[simp] theorem latchRequest_line (id instr : Byte) (p : List Byte) (wait : Word40) :
    (latchRequest id instr p wait s).line =
      s.line := rfl

@[simp] theorem latchRequest_port (id instr : Byte) (p : List Byte) (wait : Word40) :
    (latchRequest id instr p wait s).port =
      s.port := rfl

@[simp] theorem latchRequest_result (id instr : Byte) (p : List Byte) (wait : Word40) :
    (latchRequest id instr p wait s).result =
      s.result := rfl

@[simp] theorem latchRequest_device (id instr : Byte) (p : List Byte) (wait : Word40) :
    (latchRequest id instr p wait s).device =
      s.device := rfl

/-! `latch` -/

@[simp] theorem latch_params (f : Fields) :
    (latch f s).params = s.params := rfl

@[simp] theorem latch_req (f : Fields) :
    (latch f s).req = s.req := rfl

@[simp] theorem latch_resp (f : Fields) :
    (latch f s).resp =
      { s.resp with valid := true, id := f.id, instr := f.instr, crcCalc := f.crcCalc, crcWire := f.crcWire, err := errOf f.content, params := paramsOf f.content } := rfl

@[simp] theorem latch_policy (f : Fields) :
    (latch f s).policy = s.policy := rfl

@[simp] theorem latch_xstate (f : Fields) :
    (latch f s).xstate = s.xstate := rfl

@[simp] theorem latch_flags (f : Fields) :
    (latch f s).flags = s.flags := rfl

@[simp] theorem latch_cfg (f : Fields) :
    (latch f s).cfg = s.cfg := rfl

@[simp] theorem latch_rx (f : Fields) :
    (latch f s).rx = s.rx := rfl

@[simp] theorem latch_tx (f : Fields) :
    (latch f s).tx = s.tx := rfl

@[simp] theorem latch_line (f : Fields) :
    (latch f s).line = s.line := rfl

@[simp] theorem latch_port (f : Fields) :
    (latch f s).port = s.port := rfl

@[simp] theorem latch_result (f : Fields) :
    (latch f s).result = s.result := rfl

@[simp] theorem latch_device (f : Fields) :
    (latch f s).device = s.device := rfl

/-! `enterDraining` -/

@[simp] theorem enterDraining_params :
    (enterDraining s).params = s.params := rfl

@[simp] theorem enterDraining_req :
    (enterDraining s).req = s.req := rfl

@[simp] theorem enterDraining_resp :
    (enterDraining s).resp = s.resp := rfl

@[simp] theorem enterDraining_policy :
    (enterDraining s).policy = s.policy := rfl

@[simp] theorem enterDraining_xstate :
    (enterDraining s).xstate = .draining := rfl

@[simp] theorem enterDraining_flags :
    (enterDraining s).flags = s.flags := rfl

@[simp] theorem enterDraining_cfg :
    (enterDraining s).cfg = s.cfg := rfl

@[simp] theorem enterDraining_rx :
    (enterDraining s).rx = s.rx := rfl

@[simp] theorem enterDraining_tx :
    (enterDraining s).tx = s.tx := rfl

@[simp] theorem enterDraining_line :
    (enterDraining s).line = s.line := rfl

@[simp] theorem enterDraining_port :
    (enterDraining s).port = s.port := rfl

@[simp] theorem enterDraining_result :
    (enterDraining s).result = s.result := rfl

@[simp] theorem enterDraining_device :
    (enterDraining s).device = s.device := rfl

/-! `enterSent` -/

@[simp] theorem enterSent_params :
    (enterSent s).params = s.params := rfl

@[simp] theorem enterSent_req :
    (enterSent s).req = s.req := rfl

@[simp] theorem enterSent_resp :
    (enterSent s).resp = s.resp := rfl

@[simp] theorem enterSent_policy :
    (enterSent s).policy = s.policy := rfl

@[simp] theorem enterSent_xstate :
    (enterSent s).xstate = .sent := rfl

@[simp] theorem enterSent_flags :
    (enterSent s).flags = s.flags := rfl

@[simp] theorem enterSent_cfg :
    (enterSent s).cfg = s.cfg := rfl

@[simp] theorem enterSent_rx :
    (enterSent s).rx = s.rx := rfl

@[simp] theorem enterSent_tx :
    (enterSent s).tx = s.tx := rfl

@[simp] theorem enterSent_line :
    (enterSent s).line = s.line := rfl

@[simp] theorem enterSent_port :
    (enterSent s).port = s.port := rfl

@[simp] theorem enterSent_result :
    (enterSent s).result = s.result := rfl

@[simp] theorem enterSent_device :
    (enterSent s).device = s.device := rfl

/-! `setAttempt` -/

@[simp] theorem setAttempt_params (v : Byte) :
    (setAttempt v s).params = s.params := rfl

@[simp] theorem setAttempt_req (v : Byte) :
    (setAttempt v s).req = s.req := rfl

@[simp] theorem setAttempt_resp (v : Byte) :
    (setAttempt v s).resp = s.resp := rfl

@[simp] theorem setAttempt_policy (v : Byte) :
    (setAttempt v s).policy =
      { s.policy with attempt := v } := rfl

@[simp] theorem setAttempt_xstate (v : Byte) :
    (setAttempt v s).xstate = s.xstate := rfl

@[simp] theorem setAttempt_flags (v : Byte) :
    (setAttempt v s).flags = s.flags := rfl

@[simp] theorem setAttempt_cfg (v : Byte) :
    (setAttempt v s).cfg = s.cfg := rfl

@[simp] theorem setAttempt_rx (v : Byte) :
    (setAttempt v s).rx = s.rx := rfl

@[simp] theorem setAttempt_tx (v : Byte) :
    (setAttempt v s).tx = s.tx := rfl

@[simp] theorem setAttempt_line (v : Byte) :
    (setAttempt v s).line = s.line := rfl

@[simp] theorem setAttempt_port (v : Byte) :
    (setAttempt v s).port = s.port := rfl

@[simp] theorem setAttempt_result (v : Byte) :
    (setAttempt v s).result = s.result := rfl

@[simp] theorem setAttempt_device (v : Byte) :
    (setAttempt v s).device = s.device := rfl

/-! `startPolicy` -/

@[simp] theorem startPolicy_params (iters : Byte) :
    (startPolicy iters s).params =
      s.params := rfl

@[simp] theorem startPolicy_req (iters : Byte) :
    (startPolicy iters s).req = s.req := rfl

@[simp] theorem startPolicy_resp (iters : Byte) :
    (startPolicy iters s).resp = s.resp := rfl

@[simp] theorem startPolicy_policy (iters : Byte) :
    (startPolicy iters s).policy =
      { attempt := 0, iterLimit := itersOf iters } := rfl

@[simp] theorem startPolicy_xstate (iters : Byte) :
    (startPolicy iters s).xstate =
      s.xstate := rfl

@[simp] theorem startPolicy_flags (iters : Byte) :
    (startPolicy iters s).flags =
      s.flags := rfl

@[simp] theorem startPolicy_cfg (iters : Byte) :
    (startPolicy iters s).cfg = s.cfg := rfl

@[simp] theorem startPolicy_rx (iters : Byte) :
    (startPolicy iters s).rx = s.rx := rfl

@[simp] theorem startPolicy_tx (iters : Byte) :
    (startPolicy iters s).tx = s.tx := rfl

@[simp] theorem startPolicy_line (iters : Byte) :
    (startPolicy iters s).line = s.line := rfl

@[simp] theorem startPolicy_port (iters : Byte) :
    (startPolicy iters s).port = s.port := rfl

@[simp] theorem startPolicy_result (iters : Byte) :
    (startPolicy iters s).result =
      s.result := rfl

@[simp] theorem startPolicy_device (iters : Byte) :
    (startPolicy iters s).device =
      s.device := rfl

/-! `readyNow` -/

@[simp] theorem readyNow_params :
    (readyNow s).2.params = s.params := rfl

@[simp] theorem readyNow_req :
    (readyNow s).2.req = s.req := rfl

@[simp] theorem readyNow_resp :
    (readyNow s).2.resp = s.resp := rfl

@[simp] theorem readyNow_policy :
    (readyNow s).2.policy = s.policy := rfl

@[simp] theorem readyNow_xstate :
    (readyNow s).2.xstate = s.xstate := rfl

@[simp] theorem readyNow_flags :
    (readyNow s).2.flags = s.flags := rfl

@[simp] theorem readyNow_cfg :
    (readyNow s).2.cfg = s.cfg := rfl

@[simp] theorem readyNow_rx :
    (readyNow s).2.rx = s.rx := rfl

@[simp] theorem readyNow_tx :
    (readyNow s).2.tx = s.tx := rfl

@[simp] theorem readyNow_line :
    (readyNow s).2.line = s.line.readyNow.2 := rfl

@[simp] theorem readyNow_port :
    (readyNow s).2.port = s.port := rfl

@[simp] theorem readyNow_result :
    (readyNow s).2.result = s.result := rfl

@[simp] theorem readyNow_device :
    (readyNow s).2.device = s.device := rfl

/-! `readyWithin` -/

@[simp] theorem readyWithin_params :
    (readyWithin s).2.params = s.params := rfl

@[simp] theorem readyWithin_req :
    (readyWithin s).2.req = s.req := rfl

@[simp] theorem readyWithin_resp :
    (readyWithin s).2.resp = s.resp := rfl

@[simp] theorem readyWithin_policy :
    (readyWithin s).2.policy = s.policy := rfl

@[simp] theorem readyWithin_xstate :
    (readyWithin s).2.xstate = s.xstate := rfl

@[simp] theorem readyWithin_flags :
    (readyWithin s).2.flags = s.flags := rfl

@[simp] theorem readyWithin_cfg :
    (readyWithin s).2.cfg = s.cfg := rfl

@[simp] theorem readyWithin_rx :
    (readyWithin s).2.rx = s.rx := rfl

@[simp] theorem readyWithin_tx :
    (readyWithin s).2.tx = s.tx := rfl

@[simp] theorem readyWithin_line :
    (readyWithin s).2.line =
      (s.line.readyWithin s.req.wait).2 := rfl

@[simp] theorem readyWithin_port :
    (readyWithin s).2.port = s.port := rfl

@[simp] theorem readyWithin_result :
    (readyWithin s).2.result = s.result := rfl

@[simp] theorem readyWithin_device :
    (readyWithin s).2.device = s.device := rfl

/-! `readOne` -/

@[simp] theorem readOne_params :
    (readOne s).2.params = s.params := rfl

@[simp] theorem readOne_req :
    (readOne s).2.req = s.req := rfl

@[simp] theorem readOne_resp :
    (readOne s).2.resp = s.resp := rfl

@[simp] theorem readOne_policy :
    (readOne s).2.policy = s.policy := rfl

@[simp] theorem readOne_xstate :
    (readOne s).2.xstate = s.xstate := rfl

@[simp] theorem readOne_flags :
    (readOne s).2.flags = s.flags := rfl

@[simp] theorem readOne_cfg :
    (readOne s).2.cfg = s.cfg := rfl

@[simp] theorem readOne_rx :
    (readOne s).2.rx = s.rx := rfl

@[simp] theorem readOne_tx :
    (readOne s).2.tx = s.tx := rfl

@[simp] theorem readOne_line :
    (readOne s).2.line = s.line.readOne.2 := rfl

@[simp] theorem readOne_port :
    (readOne s).2.port = s.port := rfl

@[simp] theorem readOne_result :
    (readOne s).2.result = s.result := rfl

@[simp] theorem readOne_device :
    (readOne s).2.device = s.device := rfl

/-! `sendFrame` -/

@[simp] theorem sendFrame_params :
    (sendFrame s).2.params = s.params := rfl

@[simp] theorem sendFrame_req :
    (sendFrame s).2.req = s.req := rfl

@[simp] theorem sendFrame_resp :
    (sendFrame s).2.resp = s.resp := rfl

@[simp] theorem sendFrame_policy :
    (sendFrame s).2.policy = s.policy := rfl

@[simp] theorem sendFrame_xstate :
    (sendFrame s).2.xstate = s.xstate := rfl

@[simp] theorem sendFrame_flags :
    (sendFrame s).2.flags = s.flags := rfl

@[simp] theorem sendFrame_cfg :
    (sendFrame s).2.cfg = s.cfg := rfl

@[simp] theorem sendFrame_rx :
    (sendFrame s).2.rx = s.rx := rfl

@[simp] theorem sendFrame_tx :
    (sendFrame s).2.tx = s.tx := rfl

@[simp] theorem sendFrame_line :
    (sendFrame s).2.line = (s.line.send s.txBytes).2 := rfl

@[simp] theorem sendFrame_port :
    (sendFrame s).2.port = s.port := rfl

@[simp] theorem sendFrame_result :
    (sendFrame s).2.result = s.result := rfl

@[simp] theorem sendFrame_device :
    (sendFrame s).2.device = s.device := rfl

/-! `configureSession` -/

@[simp] theorem configureSession_params (cap : Word16) (waitUs baud : Word32) (bits stop parity : Byte) :
    (configureSession cap waitUs baud bits stop parity s).params =
      s.params := rfl

@[simp] theorem configureSession_req (cap : Word16) (waitUs baud : Word32) (bits stop parity : Byte) :
    (configureSession cap waitUs baud bits stop parity s).req =
      s.req := rfl

@[simp] theorem configureSession_resp (cap : Word16) (waitUs baud : Word32) (bits stop parity : Byte) :
    (configureSession cap waitUs baud bits stop parity s).resp =
      s.resp := rfl

@[simp] theorem configureSession_policy (cap : Word16) (waitUs baud : Word32) (bits stop parity : Byte) :
    (configureSession cap waitUs baud bits stop parity s).policy =
      s.policy := rfl

@[simp] theorem configureSession_xstate (cap : Word16) (waitUs baud : Word32) (bits stop parity : Byte) :
    (configureSession cap waitUs baud bits stop parity s).xstate =
      s.xstate := rfl

@[simp] theorem configureSession_flags (cap : Word16) (waitUs baud : Word32) (bits stop parity : Byte) :
    (configureSession cap waitUs baud bits stop parity s).flags =
      s.flags := rfl

@[simp] theorem configureSession_cfg (cap : Word16) (waitUs baud : Word32) (bits stop parity : Byte) :
    (configureSession cap waitUs baud bits stop parity s).cfg =
      { cap := max cap.toNat s.params.capMin, waitUs := waitUs, baud := baud, actualBaud := s.line.grantedBaud, ready := true } := rfl

@[simp] theorem configureSession_rx (cap : Word16) (waitUs baud : Word32) (bits stop parity : Byte) :
    (configureSession cap waitUs baud bits stop parity s).rx =
      s.rx := rfl

@[simp] theorem configureSession_tx (cap : Word16) (waitUs baud : Word32) (bits stop parity : Byte) :
    (configureSession cap waitUs baud bits stop parity s).tx =
      s.tx := rfl

@[simp] theorem configureSession_line (cap : Word16) (waitUs baud : Word32) (bits stop parity : Byte) :
    (configureSession cap waitUs baud bits stop parity s).line =
      { s.line with baud := baud, bits := bits, stop := stop, parity := parity } := rfl

@[simp] theorem configureSession_port (cap : Word16) (waitUs baud : Word32) (bits stop parity : Byte) :
    (configureSession cap waitUs baud bits stop parity s).port =
      s.port := rfl

@[simp] theorem configureSession_result (cap : Word16) (waitUs baud : Word32) (bits stop parity : Byte) :
    (configureSession cap waitUs baud bits stop parity s).result =
      s.result := rfl

@[simp] theorem configureSession_device (cap : Word16) (waitUs baud : Word32) (bits stop parity : Byte) :
    (configureSession cap waitUs baud bits stop parity s).device =
      s.device := rfl

/-! `clearTxLen` -/

@[simp] theorem clearTxLen_params :
    (clearTxLen s).params = s.params := rfl

@[simp] theorem clearTxLen_req :
    (clearTxLen s).req = s.req := rfl

@[simp] theorem clearTxLen_resp :
    (clearTxLen s).resp = s.resp := rfl

@[simp] theorem clearTxLen_policy :
    (clearTxLen s).policy = s.policy := rfl

@[simp] theorem clearTxLen_xstate :
    (clearTxLen s).xstate = s.xstate := rfl

@[simp] theorem clearTxLen_flags :
    (clearTxLen s).flags = s.flags := rfl

@[simp] theorem clearTxLen_cfg :
    (clearTxLen s).cfg = s.cfg := rfl

@[simp] theorem clearTxLen_rx :
    (clearTxLen s).rx = s.rx := rfl

@[simp] theorem clearTxLen_tx :
    (clearTxLen s).tx = { s.tx with len := 0 } := rfl

@[simp] theorem clearTxLen_line :
    (clearTxLen s).line = s.line := rfl

@[simp] theorem clearTxLen_port :
    (clearTxLen s).port = s.port := rfl

@[simp] theorem clearTxLen_result :
    (clearTxLen s).result = s.result := rfl

@[simp] theorem clearTxLen_device :
    (clearTxLen s).device = s.device := rfl

end

end Sys2Proof.Machine
end

