-- ==== Sys2Proof/Laws/Transport.lean ====
section
/-!
SUPPORT. What each transport call can do to the channel, said once: which fields it leaves, that a quiet
line stays quiet, and how much of the plan it uses up. Later proofs cite these.
-/

namespace Sys2Proof.Machine

/-! ## Calls that only listen -/

/-- A call that only listens touches the incoming side of the plan and nothing else: settings, sent
frames, planned replies stay. -/
def Transport.Listens (l l' : Transport) : Prop :=
  l' = { l with avail := l'.avail, future := l'.future, lag := l'.lag, balk := l'.balk,
                babble := l'.babble }

theorem Transport.Listens.refl (l : Transport) : l.Listens l := rfl

theorem Transport.Listens.trans {a b c : Transport} (h : a.Listens b) (h' : b.Listens c) :
    a.Listens c := by
  unfold Transport.Listens at *
  rw [h'] ; rw [h]

theorem Transport.tick_listens (l : Transport) : l.Listens l.tick := by
  unfold Transport.Listens Transport.tick
  split <;> rfl

theorem Transport.await_listens (t : Nat) (l : Transport) : l.Listens (l.await t).2 := by
  unfold Transport.Listens Transport.await
  split
  · split <;> rfl
  · split <;> rfl

theorem Transport.take_listens (l : Transport) : l.Listens l.take.2 := by
  unfold Transport.Listens Transport.take
  split
  · rfl
  · split <;> rfl

theorem Transport.readyNow_listens (l : Transport) : l.Listens l.readyNow.2 := l.tick_listens

theorem Transport.readyWithin_listens (t : Word40) (l : Transport) :
    l.Listens (l.readyWithin t).2 := by
  unfold Transport.readyWithin
  split
  · exact l.tick_listens.trans (Transport.await_listens _ _)
  · exact l.tick_listens

theorem Transport.readOne_listens (l : Transport) : l.Listens l.readOne.2 :=
  l.tick_listens.trans (Transport.take_listens _)

section

variable {l l' : Transport} (h : l.Listens l')
include h

theorem Transport.Listens.sent : l'.sent = l.sent := by rw [h]
theorem Transport.Listens.replies : l'.replies = l.replies := by rw [h]
theorem Transport.Listens.baud : l'.baud = l.baud := by rw [h]
theorem Transport.Listens.bits : l'.bits = l.bits := by rw [h]
theorem Transport.Listens.stop : l'.stop = l.stop := by rw [h]
theorem Transport.Listens.parity : l'.parity = l.parity := by rw [h]
theorem Transport.Listens.claimed : l'.claimed = l.claimed := by rw [h]
theorem Transport.Listens.grantedBaud : l'.grantedBaud = l.grantedBaud := by rw [h]

end

/-! ## Sending -/

/-- What `T.send` leaves: the settings, and everything that is already pending or on its way. -/
theorem Transport.emit_fields (frame : List Byte) (l : Transport) :
    (l.emit frame).2.sent = l.sent ++ [frame] ∧ (l.emit frame).2.avail = l.avail ∧
    (l.emit frame).2.lag = l.lag ∧ (l.emit frame).2.balk = l.balk ∧
    (l.emit frame).2.babble = l.babble ∧ (l.emit frame).2.baud = l.baud ∧
    (l.emit frame).2.bits = l.bits ∧ (l.emit frame).2.stop = l.stop ∧
    (l.emit frame).2.parity = l.parity ∧ (l.emit frame).2.claimed = l.claimed ∧
    (l.emit frame).2.grantedBaud = l.grantedBaud := by
  unfold Transport.emit
  split
  · simp
  · split <;> simp

/-- `T.send` fails exactly when the plan's next reply says so. -/
theorem Transport.emit_ok (frame : List Byte) (l : Transport) :
    (l.emit frame).1 = true ↔ ∀ r rs, l.replies = r :: rs → r.ok = true := by
  unfold Transport.emit
  split
  · next h => simp [h]
  · next r rs h =>
    split
    · next hr => simp [h, hr]
    · next hr => simp [h, hr]

/-! ## A quiet line stays quiet -/

@[simp] theorem Transport.tick_babble (l : Transport) : l.tick.babble = l.babble := by
  unfold Transport.tick
  split <;> rfl

@[simp] theorem Transport.take_babble (l : Transport) : l.take.2.babble = l.babble := by
  unfold Transport.take
  split
  · rfl
  · split <;> rfl

theorem Transport.await_babble {l : Transport} (t : Nat) (h : l.babble = []) :
    (l.await t).2.babble = [] := by
  unfold Transport.await
  split
  · split <;> exact h
  · simp [h]

theorem Transport.readyWithin_babble {l : Transport} (t : Word40) (h : l.babble = []) :
    (l.readyWithin t).2.babble = [] := by
  unfold Transport.readyWithin
  split
  · exact Transport.await_babble _ (by simpa using h)
  · simpa using h

@[simp] theorem Transport.readOne_babble (l : Transport) : l.readOne.2.babble = l.babble := by
  simp [Transport.readOne]

@[simp] theorem Transport.send_babble (frame : List Byte) (l : Transport) :
    (l.send frame).2.babble = l.babble := by
  simp [Transport.send, (Transport.emit_fields frame l.tick).2.2.2.2.1]

/-! ## What arrives -/

/-- Time passing neither loses a byte nor changes the order: what has arrived, then what is on its way. -/
theorem arrive_stream (t : Nat) (cs : List Chunk) :
    (arrive t cs).1 ++ ((arrive t cs).2.map (·.bytes)).flatten = (cs.map (·.bytes)).flatten := by
  induction cs generalizing t with
  | nil => rfl
  | cons c cs ih =>
    unfold arrive
    split
    · simp [ih]
    · simp

/-- How much of the plan a list of chunks holds. -/
def chunkStock (cs : List Chunk) : Nat := (cs.map (fun c => c.bytes.length + 1)).sum

@[simp] theorem chunkStock_nil : chunkStock [] = 0 := rfl

@[simp] theorem chunkStock_cons (c : Chunk) (cs : List Chunk) :
    chunkStock (c :: cs) = c.bytes.length + 1 + chunkStock cs := by
  simp [chunkStock]

theorem arrive_stock (t : Nat) (cs : List Chunk) :
    (arrive t cs).1.length + chunkStock (arrive t cs).2 ≤ chunkStock cs := by
  induction cs generalizing t with
  | nil => simp [arrive]
  | cons c cs ih =>
    unfold arrive
    split
    · have := ih (t - c.gap)
      simp only [List.length_append, chunkStock_cons]
      omega
    · simp

theorem Transport.stock_eq (l : Transport) :
    l.stock = l.avail.length + chunkStock l.future + 2 * l.balk.length := rfl

/-- Time passing adds nothing to the plan. -/
theorem Transport.tick_stock (l : Transport) : l.tick.stock ≤ l.stock := by
  unfold Transport.tick
  split
  · exact Nat.le_refl _
  · next t lag h =>
    have := arrive_stock t l.future
    simp only [Transport.stock_eq, List.length_append]
    omega

/-- Taking a byte, or being refused one, uses up the plan, unless nothing is pending. -/
theorem Transport.take_stock (l : Transport) :
    (l.avail = [] ∧ l.take = (none, l)) ∨ l.take.2.stock + 1 ≤ l.stock := by
  unfold Transport.take
  split
  · next h => exact .inl ⟨h, rfl⟩
  · next b bs h =>
    right
    split
    · next balk hb => simp only [Transport.stock_eq, h, hb, List.length_cons]; omega
    · next balk hb => simp only [Transport.stock_eq, hb, List.length_cons]; omega
    · next gap balk hb =>
      simp only [Transport.stock_eq, h, hb, List.length_cons, List.length_nil, chunkStock_cons]
      omega
    · next hb => simp only [Transport.stock_eq, h, hb, List.length_cons]; omega

/-- What is pending, then what is on its way. -/
def Transport.coming (l : Transport) : List Byte := l.avail ++ (l.future.map (·.bytes)).flatten

/-- A read takes the head of what is coming, or takes nothing (20_memory R52 (a)). -/
theorem Transport.take_coming (l : Transport) :
    (∃ b, l.take.1 = some b ∧ l.coming = b :: l.take.2.coming) ∨
    (l.take.1 = none ∧ l.take.2.coming = l.coming) := by
  unfold Transport.take
  split
  · exact .inr ⟨rfl, rfl⟩
  · next b bs h =>
    split
    · exact .inl ⟨b, rfl, by simp [Transport.coming, h]⟩
    · exact .inr ⟨rfl, rfl⟩
    · exact .inr ⟨rfl, by simp [Transport.coming, h]⟩
    · exact .inl ⟨b, rfl, by simp [Transport.coming, h]⟩

/-- Waiting on an empty, quiet channel is answered yes only by a chunk of the plan. -/
theorem Transport.await_stock {l : Transport} (t : Nat) (hq : l.babble = []) (ha : l.avail = []) :
    (l.await t).2.stock ≤ l.stock ∧ ((l.await t).1 = true → (l.await t).2.stock + 1 ≤ l.stock) := by
  unfold Transport.await
  split
  · next c cs h =>
    split <;> simp only [Transport.stock_eq, h, ha, chunkStock_cons, List.length_nil] <;>
      refine ⟨by omega, fun h => ?_⟩ <;> first | omega | exact absurd h (by simp)
  · simp [hq]

end Sys2Proof.Machine
end

