-- ==== Sys2Proof/Laws/Exchange.lean ====
section
/-!
SUPPORT. One lemma per shared operation of the exchange: what it can do, and what it leaves. Later proofs
cite these and unfold neither the refill, nor the drain loop, nor the retry loop again.
-/

namespace Sys2Proof.Machine

/-! ## Operations that touch the receive buffer and the channel only -/

/-- `t` differs from `s` in the receive buffer and in the incoming side of the channel only. -/
structure Receives (s t : State) : Prop where
  eq : t = { s with rx := t.rx, line := t.line }
  line : s.line.Listens t.line

theorem Receives.refl (s : State) : Receives s s := ⟨rfl, .refl _⟩

theorem Receives.trans {a b c : State} (h : Receives a b) (h' : Receives b c) : Receives a c := by
  refine ⟨?_, h.line.trans h'.line⟩
  have e := h'.eq
  rw [h.eq] at e
  exact e

theorem readyNow_receives (s : State) : Receives s (readyNow s).2 :=
  ⟨rfl, s.line.readyNow_listens⟩

theorem readyWithin_receives (s : State) : Receives s (readyWithin s).2 :=
  ⟨rfl, Transport.readyWithin_listens _ _⟩

theorem readOne_receives (s : State) : Receives s (readOne s).2 := ⟨rfl, s.line.readOne_listens⟩

theorem appendRx_receives (b : Byte) (s : State) : Receives s (appendRx b s) := ⟨rfl, .refl _⟩

/-! ## REFILL (R142) -/

theorem refillUpTo_receives (k : Nat) (s : State) : Receives s (refillUpTo k s) := by
  induction k generalizing s with
  | zero => exact .refl s
  | succ k ih =>
    unfold refillUpTo
    split
    · exact .refl s
    · split
      · split
        · next t h =>
          have ht : t = (readOne (readyNow s).2).2 := by rw [h]
          exact ht ▸ (readyNow_receives s).trans (readOne_receives _)
        · next b t h =>
          have ht : t = (readOne (readyNow s).2).2 := by rw [h]
          exact (((readyNow_receives s).trans (ht ▸ readOne_receives _)).trans
            (appendRx_receives b t)).trans (ih _)
      · exact readyNow_receives s

theorem refill_receives (s : State) : Receives s (refill s) := refillUpTo_receives _ s

/-- What a receive-buffer operation that only appends does: it keeps what is there, and stays within the
capacity. -/
structure Appends (s t : State) : Prop where
  wf : Memory.wf s.rx.mem → Memory.wf t.rx.mem
  grows : s.rx.len ≤ t.rx.len
  fits : s.rx.len ≤ s.cfg.cap → t.rx.len ≤ s.cfg.cap
  keeps : ∀ i, i < s.rx.len → t.rx.mem.read i = s.rx.mem.read i
  above : ∀ i, t.rx.len ≤ i → t.rx.mem.read i = s.rx.mem.read i
  inside : (∀ c ∈ s.rx.mem, c.1 < s.rx.len) → ∀ c ∈ t.rx.mem, c.1 < t.rx.len
  vacated : t.rx.vacated = s.rx.vacated

theorem Appends.refl (s : State) : Appends s s :=
  ⟨id, Nat.le_refl _, id, fun _ _ => rfl, fun _ _ => rfl, id, rfl⟩

theorem Appends.of_rx {s t : State} (h : t.rx = s.rx) : Appends s t := by
  constructor <;> simp_all

theorem Appends.trans {a b c : State} (hc : b.cfg.cap = a.cfg.cap) (h : Appends a b)
    (h' : Appends b c) : Appends a c where
  wf x := h'.wf (h.wf x)
  grows := h.grows.trans h'.grows
  fits x := hc ▸ h'.fits (hc.symm ▸ h.fits x)
  keeps i hi := (h'.keeps i (Nat.lt_of_lt_of_le hi h.grows)).trans (h.keeps i hi)
  above i hi := (h'.above i hi).trans (h.above i (h'.grows.trans hi))
  inside x := h'.inside (h.inside x)
  vacated := h'.vacated.trans h.vacated

theorem appendRx_appends (b : Byte) (s : State) (h : s.rx.len ≠ s.cfg.cap) :
    Appends s (appendRx b s) where
  wf x := Memory.write_wf x _ _
  grows := Nat.le_succ _
  fits x := by simp only [appendRx_rx]; omega
  keeps i hi := Memory.read_write_other _ (by omega) _
  above i hi := Memory.read_write_other _ (by simp only [appendRx_rx] at hi; omega) _
  inside x c hc := by
    simp only [appendRx_rx] at hc ⊢
    rcases Memory.mem_write hc with h | h
    · rw [h]; exact Nat.lt_succ_self _
    · exact Nat.lt_succ_of_lt (x c h)
  vacated := rfl

theorem refillUpTo_appends (k : Nat) (s : State) : Appends s (refillUpTo k s) := by
  induction k generalizing s with
  | zero => exact .refl s
  | succ k ih =>
    unfold refillUpTo
    split
    · exact .refl s
    · next hfull =>
      split
      · split
        · next t h =>
          have ht : t = (readOne (readyNow s).2).2 := by rw [h]
          exact .of_rx (by rw [ht]; rfl)
        · next b t h =>
          have ht : t = (readOne (readyNow s).2).2 := by rw [h]
          have hr : t.rx = s.rx := by rw [ht]; rfl
          have hc : t.cfg.cap = s.cfg.cap := by rw [ht]; rfl
          have h1 : Appends s (appendRx b t) :=
            (Appends.of_rx hr).trans hc (appendRx_appends b t (by rw [hr, hc]; exact hfull))
          exact Appends.trans (b := appendRx b t) hc h1 (ih _)
      · exact .of_rx rfl

theorem refill_appends (s : State) : Appends s (refill s) := refillUpTo_appends _ s

/-! ## The overflow test (R144) -/

/-- The overflow test writes nothing but the channel, and answers yes only on a full buffer. -/
theorem overflowTest_cases (s : State) :
    (s.rx.len = s.cfg.cap ∧ overflowTest s = readyNow s) ∨
    (s.rx.len ≠ s.cfg.cap ∧ overflowTest s = (false, s)) := by
  unfold overflowTest
  split
  · next h => exact .inl ⟨h, rfl⟩
  · next h => exact .inr ⟨h, rfl⟩

/-! ## One pass (R148 steps 7 to 7d) -/

/-- The state a pass decodes: refilled, and past the overflow test. -/
def passInput (s : State) : State := (overflowTest (refill (enterDraining s))).2

theorem passInput_receives (s : State) : Receives (enterDraining s) (passInput s) := by
  unfold passInput
  rcases overflowTest_cases (refill (enterDraining s)) with ⟨-, h⟩ | ⟨-, h⟩ <;> rw [h]
  · exact (refill_receives _).trans (readyNow_receives _)
  · exact refill_receives _

/-- Everything a pass can do: overflow, or one of the five arms of step 7d. -/
theorem drainPass_cases (s : State) :
    ((passInput s).rx.len = s.cfg.cap ∧ drainPass s = raiseOutcome .oversizedData (passInput s)) ∨
    drainPass s = actOn (decodeFrameBytes (passInput s).rxBytes) (passInput s) := by
  have hr := (refill_receives (enterDraining s)).eq
  unfold drainPass passInput
  rcases overflowTest_cases (refill (enterDraining s)) with ⟨hc, h⟩ | ⟨-, h⟩
  · rw [h]
    cases hb : (readyNow (refill (enterDraining s))).1
    · exact .inr (by rw [show readyNow (refill (enterDraining s)) =
        (false, (readyNow (refill (enterDraining s))).2) from by rw [← hb]])
    · refine .inl ⟨?_, by rw [show readyNow (refill (enterDraining s)) =
        (true, (readyNow (refill (enterDraining s))).2) from by rw [← hb]]⟩
      rw [hr] at hc
      exact hc
  · exact .inr (by rw [h])

/-- The arms of step 7d leave parameters, configuration, request, send buffer, channel, host side. -/
theorem actOn_fields (r : DecodeResult) (s : State) :
    (actOn r s).params = s.params ∧ (actOn r s).cfg = s.cfg ∧ (actOn r s).req = s.req ∧
    (actOn r s).policy = s.policy ∧ (actOn r s).tx = s.tx ∧ (actOn r s).line = s.line ∧
    (actOn r s).port = s.port ∧ (actOn r s).result = s.result ∧
    (actOn r s).device = s.device := by
  cases r <;> simp [actOn]

/-- What an exchange leaves once its frame is built: `t` differs from `s` in the response registers, the
flags, `XSTATE`, the receive buffer and the incoming side of the channel only. -/
structure Settles (s t : State) : Prop where
  eq : t = { s with resp := t.resp, flags := t.flags, xstate := t.xstate, rx := t.rx,
                    line := t.line }
  line : s.line.Listens t.line

theorem Settles.refl (s : State) : Settles s s := ⟨rfl, .refl _⟩

theorem Settles.trans {a b c : State} (h : Settles a b) (h' : Settles b c) : Settles a c := by
  refine ⟨?_, h.line.trans h'.line⟩
  have e := h'.eq
  rw [h.eq] at e
  exact e

theorem Receives.settles {s t : State} (h : Receives s t) : Settles s t := by
  refine ⟨?_, h.line⟩
  rw [h.eq]

theorem raiseOutcome_settles (o : Code) (s : State) : Settles s (raiseOutcome o s) :=
  ⟨rfl, .refl _⟩

theorem enterDraining_settles (s : State) : Settles s (enterDraining s) := ⟨rfl, .refl _⟩

theorem enterSent_settles (s : State) : Settles s (enterSent s) := ⟨rfl, .refl _⟩

theorem latch_settles (f : Fields) (s : State) : Settles s (latch f s) := ⟨rfl, .refl _⟩

theorem compact_settles (k : Nat) (s : State) : Settles s (compact k s) := by
  unfold compact
  split
  · exact .refl s
  · exact ⟨rfl, .refl _⟩

theorem actOn_settles (r : DecodeResult) (s : State) : Settles s (actOn r s) := by
  cases r with
  | headerNotFound k => exact (compact_settles k s).trans ⟨rfl, .refl _⟩
  | incomplete k => exact (compact_settles k s).trans ⟨rfl, .refl _⟩
  | malformed k => exact raiseOutcome_settles _ s
  | checksumMismatch f => exact (latch_settles f s).trans (raiseOutcome_settles _ _)
  | success f => exact (latch_settles f s).trans (raiseOutcome_settles _ _)

theorem drainPass_settles (s : State) : Settles s (drainPass s) := by
  have h := (enterDraining_settles s).trans (passInput_receives s).settles
  rcases drainPass_cases s with ⟨-, e⟩ | e <;> rw [e]
  · exact h.trans (raiseOutcome_settles _ _)
  · exact h.trans (actOn_settles _ _)

/-! ## The drain loop (R148 step 7e, 8) -/

theorem moreAfterPass_receives (s : State) : Receives s (moreAfterPass s).2 := by
  unfold moreAfterPass
  split
  · exact readyNow_receives s
  · exact (readyNow_receives s).trans (readyWithin_receives _)

/-- The induction over the passes, said once: a property that the loop's body keeps holds of the state in
which the last pass starts, and the exchange ends with that pass or with the line going quiet. -/
theorem drain_induct {P : State → Prop}
    (body : ∀ s, P s → (drainPass s).xstate ≠ .idle → (moreAfterPass (drainPass s)).1 = true →
      P (moreAfterPass (drainPass s)).2)
    {n : Nat} {s t : State} (h : drain n s = some t) (hs : P s) :
    ∃ u, P u ∧
      (((drainPass u).xstate = .idle ∧ t = drainPass u) ∨
       ((drainPass u).xstate ≠ .idle ∧ (moreAfterPass (drainPass u)).1 = false ∧
         t = endQuiet (moreAfterPass (drainPass u)).2)) := by
  induction n generalizing s with
  | zero => cases h
  | succ n ih =>
    unfold drain at h
    split at h
    · next hi => exact ⟨s, hs, .inl ⟨hi, (Option.some.inj h).symm⟩⟩
    · next hi =>
      split at h
      · next u hm =>
        have hu := body s hs hi (by rw [hm])
        rw [hm] at hu
        exact ih h hu
      · next u hm =>
        exact ⟨s, hs, .inr ⟨hi, by rw [hm], by rw [hm]; exact (Option.some.inj h).symm⟩⟩

theorem drain_settles {n : Nat} {s t : State} (h : drain n s = some t) : Settles s t := by
  obtain ⟨u, hu, ⟨-, rfl⟩ | ⟨-, -, rfl⟩⟩ := drain_induct (P := Settles s)
    (fun u hu _ _ => (hu.trans (drainPass_settles u)).trans (moreAfterPass_receives _).settles)
    h (.refl s)
  · exact hu.trans (drainPass_settles u)
  · exact ((hu.trans (drainPass_settles u)).trans (moreAfterPass_receives _).settles).trans
      (raiseOutcome_settles _ _)

/-- Everything steps 6 to 8 can do: silence, or the drain loop. -/
theorem receive_cases (s : State) :
    ((readyWithin s).1 = true ∧ receive s = drain (passBound (readyWithin s).2) (readyWithin s).2) ∨
    ((readyWithin s).1 = false ∧ receive s = some (endQuiet (readyWithin s).2)) := by
  unfold receive
  split
  · next t h => exact .inl ⟨by rw [h], by rw [h]⟩
  · next t h => exact .inr ⟨by rw [h], by rw [h]⟩

theorem receive_settles {s t : State} (h : receive s = some t) : Settles s t := by
  rcases receive_cases s with ⟨-, e⟩ | ⟨-, e⟩
  · rw [e] at h
    exact (readyWithin_receives s).settles.trans (drain_settles h)
  · rw [e] at h
    cases h
    exact (readyWithin_receives s).settles.trans (raiseOutcome_settles _ _)

/-! ## The exchange (R148) -/

/-- The state after steps 2 to 5: everything cleared, latched, encoded, and the frame sent. -/
def sentState (id instr : Byte) (p : List Byte) (wait : Word40) (s : State) : State :=
  (sendFrame (beginExchange id instr p wait s)).2

/-- Everything an exchange can do: the send fails, or the response is received. -/
theorem exchange_cases (id instr : Byte) (p : List Byte) (wait : Word40) (s : State) :
    ((sendFrame (beginExchange id instr p wait s)).1 = true ∧
      exchange id instr p wait s = receive (enterSent (sentState id instr p wait s))) ∨
    ((sendFrame (beginExchange id instr p wait s)).1 = false ∧
      exchange id instr p wait s =
        some (raiseOutcome .noResponse (sentState id instr p wait s))) := by
  unfold exchange sentState
  split
  · next t h => exact .inl ⟨by rw [h], by rw [h]⟩
  · next t h => exact .inr ⟨by rw [h], by rw [h]; rfl⟩

/-- An exchange that ends leaves what its start and its send wrote, but for what receiving touches. -/
theorem exchange_settles {id instr : Byte} {p : List Byte} {wait : Word40} {s t : State}
    (h : exchange id instr p wait s = some t) : Settles (sentState id instr p wait s) t := by
  rcases exchange_cases id instr p wait s with ⟨-, e⟩ | ⟨-, e⟩
  · rw [e] at h
    exact (enterSent_settles _).trans (receive_settles h)
  · rw [e] at h
    cases h
    exact raiseOutcome_settles _ _

/-! ## XCHG and the retry loop (R147, R174) -/

/-- A command that is accepted runs its exchange; one that is not is refused with no other change. -/
theorem runXchg_cases (id instr : Byte) (p : List Byte) (wait : Word40) (s : State) :
    (accepts p s = true ∧
      runXchg id instr p wait s =
        (exchange id instr p wait (setAttempt 1 s)).map presentOutcome) ∨
    (accepts p s = false ∧ runXchg id instr p wait s = some (refuse s)) := by
  unfold runXchg
  cases accepts p s <;> simp

theorem runXchgr_cases (id instr : Byte) (p : List Byte) (mult iters : Byte) (s : State) :
    (accepts p s = true ∧
      runXchgr id instr p mult iters s =
        (attempts id instr p (waitEff s.cfg.waitUs mult) (itersOf iters).toNat
          (startPolicy iters s)).map presentOutcome) ∨
    (accepts p s = false ∧ runXchgr id instr p mult iters s = some (refuse s)) := by
  unfold runXchgr
  cases accepts p s <;> simp

/-- The induction over the attempts, said once: a relation that every exchange of the loop keeps holds
between the loop's start and its end. -/
theorem attempts_induct {P : State → Prop} {id instr : Byte} {p : List Byte} {wait : Word40}
    (body : ∀ s t, P s → exchange id instr p wait (setAttempt (s.policy.attempt + 1) s) = some t →
      P t)
    {n : Nat} {s t : State} (h : attempts id instr p wait n s = some t) (hs : P s) : P t := by
  induction n generalizing s with
  | zero => cases h; exact hs
  | succ n ih =>
    unfold attempts at h
    split at h
    · cases h
    · next u hu =>
      have hP := body s u hs hu
      split at h
      · cases h; exact hP
      · split at h
        · cases h; exact hP
        · exact ih h hP

/-- An operation answers a next state only when it ends. -/
theorem orNeverEnds_next {o : Option State} {t : State} (h : orNeverEnds o = .next t) :
    o = some t := by
  cases o with
  | none => cases h
  | some u => cases h; rfl

end Sys2Proof.Machine
end

