-- ==== Sys2Proof/Laws/Device.lean ====
section
/-!
SUPPORT. One lemma per shared operation of the Device Operation Layer: what it does besides the command it
issues, and how an accessor stands to its READ or WRITE. Later proofs cite these.
-/

namespace Sys2Proof.Machine

open Config

/-- A byte list that a u16 length can say has its length as prefix (30_encoding R73). -/
theorem blob_of_fits {l : List Byte} (h : l.length ≤ 0xFFFF) : blob l = natLe16 l.length ++ l := by
  simp only [blob, lengthPrefix, if_pos h]

/-- The post-processing of a call writes the device layer's answer and nothing else. -/
theorem finishPlain_eq (t : State) : finishPlain t = { t with device := ⟨t.result.code, .none⟩ } := rfl

/-- A read's post-processing: the outcome, WrongParameter, or the value (45_device_ops R192). -/
theorem finishRead_cases (len : Word16) (value : List Byte → Value) (t : State) :
    (t.result.code ≠ .success ∧
      finishRead len value t = { t with device := ⟨t.result.code, .none⟩ }) ∨
    (t.result.code = .success ∧ t.respPlen ≠ len.toNat ∧
      finishRead len value t = { t with device := ⟨.wrongParameter, .none⟩ }) ∨
    (t.result.code = .success ∧ t.respPlen = len.toNat ∧
      finishRead len value t = { t with device := ⟨.success, value t.resp.params⟩ }) := by
  unfold finishRead
  split
  · next h =>
    split
    · next h' => exact .inr (.inl ⟨h, h', rfl⟩)
    · next h' => exact .inr (.inr ⟨h, not_not.mp h', rfl⟩)
  · next h => exact .inl ⟨h, rfl⟩

/-- Decoding a read's bytes afterwards is reading with the decoding. -/
theorem finishRead_bytes (len : Word16) (value : List Byte → Value) (t : State) :
    finishRead len value t =
      { finishRead len .bytes t with device := match (finishRead len .bytes t).device with
          | ⟨.success, .bytes b⟩ => ⟨.success, value b⟩
          | d => d } := by
  rcases finishRead_cases len .bytes t with ⟨h, e⟩ | ⟨h, h', e⟩ | ⟨h, h', e⟩ <;>
    rcases finishRead_cases len value t with ⟨g, e'⟩ | ⟨g, g', e'⟩ | ⟨g, g', e'⟩ <;>
    first
      | exact absurd g h
      | exact absurd h g
      | exact absurd g' h'
      | exact absurd h' g'
      | (rw [e, e'])
  cases hc : t.result.code <;> simp_all

/-- A call that only exchanges is its command with the outcome as answer. -/
theorem plainCall_some {f : Form} {id code m n : Byte} {p : List Byte} {s t : State}
    (h : plainCall f id code p m n s = some t) :
    ∃ u, issueCall f id code p m n s = some u ∧ t = { u with device := ⟨u.result.code, .none⟩ } := by
  obtain ⟨u, hu, rfl⟩ := Option.map_eq_some_iff.mp h
  exact ⟨u, hu, rfl⟩

/-- A read is its command with the post-processing. -/
theorem readCall_some {f : Form} {id m n : Byte} {addr len : Word16} {value : List Byte → Value}
    {s t : State} (h : readCall f id addr len value m n s = some t) :
    ∃ u, issueCall f id s.params.codes.read (readPayload addr len) m n s = some u ∧
      t = finishRead len value u := by
  obtain ⟨u, hu, rfl⟩ := Option.map_eq_some_iff.mp h
  exact ⟨u, hu, rfl⟩

/-- A SET is a WRITE at its row, or is not issued and changes nothing but the answer. -/
theorem setCall_cases (f : Form) (q : Quantity) (id : Byte) (v : Value) (m n : Byte) (s : State) :
    (∃ data, encodeQuantity s.params q v = some data ∧
      setCall f q id v m n s = writeCall f id (s.params.regmap.row q).addr data m n s) ∨
    (encodeQuantity s.params q v = none ∧
      setCall f q id v m n s = some { s with device := ⟨.refused, .none⟩ }) := by
  unfold setCall
  split
  · next data h => exact .inl ⟨data, h, rfl⟩
  · next h => exact .inr ⟨h, rfl⟩

/-- A step of CONFIGURE goes on from a Success and ends at any other answer (R211). -/
theorem thenStep_cases (t : State) (k : State → Option State) :
    (t.device.code = .success ∧ thenStep (some t) k = k t) ∨
    (t.device.code ≠ .success ∧ thenStep (some t) k = some t) := by
  unfold thenStep
  by_cases h : t.device.code = .success
  · exact .inl ⟨h, by simp only [if_pos h]⟩
  · exact .inr ⟨h, by simp only [if_neg h]⟩

/-- A sweep stops at its first candidate's ping or goes on behind it (R211). -/
theorem sweep_cons {f : Form} {id : Byte} {c : Word32} {cs : List Word32} {s t : State}
    (h : pingCall f id 0 0 (setbaudCommand c s) = some t) :
    sweep f id (c :: cs) s = if t.device.code = .success then some t else sweep f id cs t := by
  simp only [sweep, h]

/-- What an accessor request may answer: the state of a read or write call, or the fault of an exchange that
never ends. -/
theorem execAccess_cases (a : Accessor) (s : State) :
    (∃ t, accessCall a s = some t ∧ execAccess a s = .next t) ∨
    (accessCall a s = none ∧ execAccess a s = .fault .exchangeNeverEnds) := by
  unfold execAccess
  cases h : accessCall a s with
  | none => exact .inr ⟨rfl, rfl⟩
  | some t => exact .inl ⟨t, rfl, rfl⟩

end Sys2Proof.Machine
end

