-- ==== Sys2Proof/Laws/PerInstr.lean ====
section
/-!
SUPPORT. The family Words: the words of an instruction begin with the match byte of its row of the opcode
table. One lemma per constructor.
-/

namespace Sys2Proof.Laws.Words

/-- The words of a command begin with its row's match byte (30_encoding R73, R74); the frame of a wire
instruction has it at offset 7 (R60, R63, R68); a call that issues XCHGR has XCHGR's (R84). -/
def Statement (i : Instr) : Prop :=
  (∀ bs, encode i = some bs → bs.head? = some i.opcode) ∧
  (∀ bs, encodeWire Config.defaultCodes i = some bs → bs[7]? = some i.opcode) ∧
  (∀ p w id ins payload m n, expand p w i = some (.xchgr id ins payload m n) → i.opcode = 0x11)

theorem frameOf_code (id instr : Byte) (p : List Byte) : (frameOf id instr p)[7]? = some instr := rfl

theorem of_command {i : Instr} {bs : List Byte} (h : encode i = some bs)
    (h0 : bs.head? = some i.opcode) (hw : wireParts Config.defaultCodes i = none)
    (hx : ∀ p w, expand p w i = none) : Statement i := by
  refine ⟨fun c hc => ?_, fun c hc => ?_, fun p w _ _ _ _ _ hc => ?_⟩
  · rw [h] at hc; cases hc; exact h0
  · simp [encodeWire, hw] at hc
  · rw [hx] at hc; cases hc

theorem of_wire {i : Instr} {w : WireParts} (h : wireParts Config.defaultCodes i = some w)
    (hc : w.code = i.opcode) (he : encode i = none) (hx : ∀ p w, expand p w i = none) :
    Statement i := by
  refine ⟨fun c h' => ?_, fun c h' => ?_, fun p w _ _ _ _ _ h' => ?_⟩
  · rw [he] at h'; cases h'
  · simp only [encodeWire, h, Option.map_some, Option.some.injEq] at h'
    rw [← h', frameOf_code, hc]
  · rw [hx] at h'; cases h'

theorem of_call {i : Instr} (hc : i.opcode = 0x11) (he : encode i = none)
    (hw : wireParts Config.defaultCodes i = none) : Statement i := by
  refine ⟨fun c h => ?_, fun c h => ?_, fun _ _ _ _ _ _ _ _ => hc⟩
  · rw [he] at h; cases h
  · simp [encodeWire, hw] at h

theorem crc16 (data : List Byte) : Statement (.crc16 data) :=
  of_command rfl rfl rfl (fun _ _ => rfl)

theorem le16 (v : Word16) : Statement (.le16 v) :=
  of_command rfl rfl rfl (fun _ _ => rfl)

theorem le32 (v : Word32) : Statement (.le32 v) :=
  of_command rfl rfl rfl (fun _ _ => rfl)

theorem u16 (b : List Byte) : Statement (.u16 b) :=
  of_command rfl rfl rfl (fun _ _ => rfl)

theorem u32 (b : List Byte) : Statement (.u32 b) :=
  of_command rfl rfl rfl (fun _ _ => rfl)

theorem s16 (b : List Byte) : Statement (.s16 b) :=
  of_command rfl rfl rfl (fun _ _ => rfl)

theorem s32 (b : List Byte) : Statement (.s32 b) :=
  of_command rfl rfl rfl (fun _ _ => rfl)

theorem stuff (p : List Byte) : Statement (.stuff p) :=
  of_command rfl rfl rfl (fun _ _ => rfl)

theorem encode (id instr : Byte) (p : List Byte) : Statement (.encode id instr p) :=
  of_command rfl rfl rfl (fun _ _ => rfl)

theorem hdrfind (buf : List Byte) : Statement (.hdrfind buf) :=
  of_command rfl rfl rfl (fun _ _ => rfl)

theorem destuff (r : List Byte) : Statement (.destuff r) :=
  of_command rfl rfl rfl (fun _ _ => rfl)

theorem decode (buf : List Byte) : Statement (.decode buf) :=
  of_command rfl rfl rfl (fun _ _ => rfl)

theorem xchg (id instr : Byte) (p : List Byte) (wait : Word40) : Statement (.xchg id instr p wait) :=
  of_command rfl rfl rfl (fun _ _ => rfl)

theorem xchgr (id instr : Byte) (p : List Byte) (mult iters : Byte) : Statement (.xchgr id instr p mult iters) :=
  of_command rfl rfl rfl (fun _ _ => rfl)

theorem init (cap : Word16) (waitUs baud : Word32) (bits stop parity : Byte) : Statement (.init cap waitUs baud bits stop parity) :=
  of_command rfl rfl rfl (fun _ _ => rfl)

theorem setbaud (baud : Word32) : Statement (.setbaud baud) :=
  of_command rfl rfl rfl (fun _ _ => rfl)

theorem wPing (id : Byte) : Statement (.wPing id) :=
  of_wire rfl rfl rfl (fun _ _ => rfl)

theorem wRead (id : Byte) (addr len : Word16) : Statement (.wRead id addr len) :=
  of_wire rfl rfl rfl (fun _ _ => rfl)

theorem wWrite (id : Byte) (addr : Word16) (data : List Byte) : Statement (.wWrite id addr data) :=
  of_wire rfl rfl rfl (fun _ _ => rfl)

theorem wRegWrite (id : Byte) (addr : Word16) (data : List Byte) : Statement (.wRegWrite id addr data) :=
  of_wire rfl rfl rfl (fun _ _ => rfl)

theorem wAction (id : Byte) : Statement (.wAction id) :=
  of_wire rfl rfl rfl (fun _ _ => rfl)

theorem wFactoryReset (id mode : Byte) : Statement (.wFactoryReset id mode) :=
  of_wire rfl rfl rfl (fun _ _ => rfl)

theorem wReboot (id : Byte) : Statement (.wReboot id) :=
  of_wire rfl rfl rfl (fun _ _ => rfl)

theorem wStatus (id err : Byte) (params : List Byte) : Statement (.wStatus id err params) :=
  of_wire rfl rfl rfl (fun _ _ => rfl)

theorem ping (f : Form) (id m n : Byte) :
    Statement (.ping f id m n) :=
  of_call rfl rfl rfl

theorem read (f : Form) (id : Byte) (addr len : Word16) (m n : Byte) :
    Statement (.read f id addr len m n) :=
  of_call rfl rfl rfl

theorem write (f : Form) (id : Byte) (addr : Word16) (data : List Byte) (m n : Byte) :
    Statement (.write f id addr data m n) :=
  of_call rfl rfl rfl

theorem regwrite (f : Form) (id : Byte) (addr : Word16) (data : List Byte) (m n : Byte) :
    Statement (.regwrite f id addr data m n) :=
  of_call rfl rfl rfl

theorem action (f : Form) (id m n : Byte) :
    Statement (.action f id m n) :=
  of_call rfl rfl rfl

theorem freset (f : Form) (id mode m n : Byte) :
    Statement (.freset f id mode m n) :=
  of_call rfl rfl rfl

theorem reboot (f : Form) (id m n : Byte) :
    Statement (.reboot f id m n) :=
  of_call rfl rfl rfl

theorem getTorqueEnable (f : Form) (id m n : Byte) :
    Statement (.getTorqueEnable f id m n) :=
  of_call rfl rfl rfl

theorem setTorqueEnable (f : Form) (id : Byte) (on : Bool) (m n : Byte) :
    Statement (.setTorqueEnable f id on m n) :=
  of_call rfl rfl rfl

theorem getPosition (f : Form) (id m n : Byte) :
    Statement (.getPosition f id m n) :=
  of_call rfl rfl rfl

theorem getVelocity (f : Form) (id m n : Byte) :
    Statement (.getVelocity f id m n) :=
  of_call rfl rfl rfl

theorem getCurrent (f : Form) (id m n : Byte) :
    Statement (.getCurrent f id m n) :=
  of_call rfl rfl rfl

theorem getTemperature (f : Form) (id m n : Byte) :
    Statement (.getTemperature f id m n) :=
  of_call rfl rfl rfl

theorem getDelayTime (f : Form) (id m n : Byte) :
    Statement (.getDelayTime f id m n) :=
  of_call rfl rfl rfl

theorem setDelayTime (f : Form) (id : Byte) (us : Nat) (m n : Byte) :
    Statement (.setDelayTime f id us m n) :=
  of_call rfl rfl rfl

theorem getDriveMode (f : Form) (id m n : Byte) :
    Statement (.getDriveMode f id m n) :=
  of_call rfl rfl rfl

theorem getOperatingMode (f : Form) (id m n : Byte) :
    Statement (.getOperatingMode f id m n) :=
  of_call rfl rfl rfl

theorem setOperatingMode (f : Form) (id code m n : Byte) :
    Statement (.setOperatingMode f id code m n) :=
  of_call rfl rfl rfl

theorem getBaudRate (f : Form) (id m n : Byte) :
    Statement (.getBaudRate f id m n) :=
  of_call rfl rfl rfl

theorem setBaudRate (f : Form) (id code m n : Byte) :
    Statement (.setBaudRate f id code m n) :=
  of_call rfl rfl rfl

theorem configure (f : Form) (id : Byte) (targetBaud : Word32) (delayUs : Nat) (opmode : Byte) :
    Statement (.configure f id targetBaud delayUs opmode) :=
  of_call rfl rfl rfl

end Sys2Proof.Laws.Words
end

