-- ==== Sys2Proof/Machine/Text.lean ====
section
/-!
DEFINITION. The textual form of a command or call (30_encoding R83, R84): the mnemonic, the suffix `.1`
for a single-shot call, and `operand=value` pairs. Numbers are decimal, byte lists hexadecimal.
-/

namespace Sys2Proof

/-- One hexadecimal digit. -/
def hexDigit (n : Nat) : String :=
  ((["0", "1", "2", "3", "4", "5", "6", "7", "8", "9", "A", "B", "C", "D", "E", "F"] :
    List String)[n]?).getD "?"

/-- A byte as two hexadecimal digits (00_scope R7). -/
def hexByte (b : Byte) : String := hexDigit (b.toNat / 16) ++ hexDigit (b.toNat % 16)

/-- A byte list in brackets (R83). -/
def textBytes (l : List Byte) : String := "[" ++ String.intercalate " " (l.map hexByte) ++ "]"

/-- An operand with a number. -/
def textNum (name : String) (n : Nat) : String := name ++ "=" ++ toString n

/-- An operand with a byte list. -/
def textList (name : String) (l : List Byte) : String := name ++ "=" ++ textBytes l

/-- A line: mnemonic and operands (R83). -/
def textLine (mnemonic : String) (operands : List String) : String :=
  mnemonic ++ " " ++ String.intercalate ", " operands

/-- A call's line, with the suffix of its form (R84); `m` and `n` are its policy operands (R186). -/
def textCall (mnemonic : String) (f : Form) (operands : List String) (m n : Byte) : String :=
  textLine (match f with | .retried => mnemonic | .single => mnemonic ++ ".1")
    (operands ++ [textNum "m" m.toNat, textNum "n" n.toNat])

/-- The textual form of an instruction. -/
def Instr.text : Instr → String
  | .crc16 data => textLine "CRC16" [textList "data" data]
  | .le16 v => textLine "LE16" [textNum "v" v.toNat]
  | .le32 v => textLine "LE32" [textNum "v" v.toNat]
  | .u16 b => textLine "U16" [textList "b" b]
  | .u32 b => textLine "U32" [textList "b" b]
  | .s16 b => textLine "S16" [textList "b" b]
  | .s32 b => textLine "S32" [textList "b" b]
  | .stuff p => textLine "STUFF" [textList "p" p]
  | .encode id ins p =>
    textLine "ENCODE" [textNum "id" id.toNat, textNum "instr" ins.toNat, textList "p" p]
  | .hdrfind buf => textLine "HDRFIND" [textList "buf" buf]
  | .destuff r => textLine "DESTUFF" [textList "r" r]
  | .decode buf => textLine "DECODE" [textList "buf" buf]
  | .xchg id ins p wait =>
    textLine "XCHG" [textNum "id" id.toNat, textNum "instr" ins.toNat, textList "p" p,
      textNum "wait_us" wait.toNat]
  | .xchgr id ins p mult iters =>
    textLine "XCHGR" [textNum "id" id.toNat, textNum "instr" ins.toNat, textList "p" p,
      textNum "mult" mult.toNat, textNum "iters" iters.toNat]
  | .init cap waitUs baud bits stop parity =>
    textLine "INIT" [textNum "cap" cap.toNat, textNum "wait_us" waitUs.toNat,
      textNum "baud" baud.toNat, textNum "bits" bits.toNat, textNum "stop" stop.toNat,
      textNum "parity" parity.toNat]
  | .setbaud baud => textLine "SETBAUD" [textNum "baud" baud.toNat]
  | .wPing id => textLine "W.PING" [textNum "id" id.toNat]
  | .wRead id addr len =>
    textLine "W.READ" [textNum "id" id.toNat, textNum "addr" addr.toNat, textNum "len" len.toNat]
  | .wWrite id addr data =>
    textLine "W.WRITE" [textNum "id" id.toNat, textNum "addr" addr.toNat, textList "data" data]
  | .wRegWrite id addr data =>
    textLine "W.REG_WRITE" [textNum "id" id.toNat, textNum "addr" addr.toNat, textList "data" data]
  | .wAction id => textLine "W.ACTION" [textNum "id" id.toNat]
  | .wFactoryReset id mode =>
    textLine "W.FACTORY_RESET" [textNum "id" id.toNat, textNum "mode" mode.toNat]
  | .wReboot id => textLine "W.REBOOT" [textNum "id" id.toNat]
  | .wStatus id err params =>
    textLine "W.STATUS" [textNum "id" id.toNat, textNum "err" err.toNat, textList "params" params]
  | .ping f id m n => textCall "PING" f [textNum "id" id.toNat] m n
  | .read f id addr len m n =>
    textCall "READ" f [textNum "id" id.toNat, textNum "addr" addr.toNat, textNum "len" len.toNat] m n
  | .write f id addr data m n =>
    textCall "WRITE" f [textNum "id" id.toNat, textNum "addr" addr.toNat, textList "data" data] m n
  | .regwrite f id addr data m n =>
    textCall "REGWRITE" f [textNum "id" id.toNat, textNum "addr" addr.toNat, textList "data" data] m n
  | .action f id m n => textCall "ACTION" f [textNum "id" id.toNat] m n
  | .freset f id mode m n =>
    textCall "FRESET" f [textNum "id" id.toNat, textNum "mode" mode.toNat] m n
  | .reboot f id m n => textCall "REBOOT" f [textNum "id" id.toNat] m n
  | .getTorqueEnable f id m n => textCall "GET_torque_enable" f [textNum "id" id.toNat] m n
  | .setTorqueEnable f id on m n =>
    textCall "SET_torque_enable" f [textNum "id" id.toNat, textNum "on" on.toNat] m n
  | .getPosition f id m n => textCall "GET_position" f [textNum "id" id.toNat] m n
  | .getVelocity f id m n => textCall "GET_velocity" f [textNum "id" id.toNat] m n
  | .getCurrent f id m n => textCall "GET_current" f [textNum "id" id.toNat] m n
  | .getTemperature f id m n => textCall "GET_temperature" f [textNum "id" id.toNat] m n
  | .getDelayTime f id m n => textCall "GET_delay_time" f [textNum "id" id.toNat] m n
  | .setDelayTime f id us m n =>
    textCall "SET_delay_time" f [textNum "id" id.toNat, textNum "us" us] m n
  | .getDriveMode f id m n => textCall "GET_drive_mode" f [textNum "id" id.toNat] m n
  | .getOperatingMode f id m n => textCall "GET_operating_mode" f [textNum "id" id.toNat] m n
  | .setOperatingMode f id code m n =>
    textCall "SET_operating_mode" f [textNum "id" id.toNat, textNum "code" code.toNat] m n
  | .getBaudRate f id m n => textCall "GET_baud_rate" f [textNum "id" id.toNat] m n
  | .setBaudRate f id code m n =>
    textCall "SET_baud_rate" f [textNum "id" id.toNat, textNum "code" code.toNat] m n
  | .configure f id targetBaud delayUs opmode =>
    textLine (match f with | .retried => "CONFIGURE" | .single => "CONFIGURE.1")
      [textNum "id" id.toNat, textNum "target_baud" targetBaud.toNat, textNum "delay_us" delayUs,
        textNum "opmode" opmode.toNat]

end Sys2Proof
end

