-- ==== Sys2Proof/Tests/Slice0.lean ====
section
/-!
SUPPORT. Tests. The expected results are the spec's worked examples and vectors (95_test_vectors), named in
each comment by their number there, or follow by hand from the rule named. Then one witness for each
statement with hypotheses.
-/

namespace Sys2Proof.Tests

open Sys2Proof Sys2Proof.Machine

set_option Elab.async false

/-! ## Helpers -/

/-- A small block after `INIT cap=32, wait_us=1000, baud=57600, bits=8, stop=1, parity=0`, with a
channel that answers the next sends with these replies (95_test_vectors 3.1). -/
def started (replies : List Reply) : State :=
  { State.reset with
    cfg := ⟨32, 1000, 57600, 57600, true⟩
    line := { Transport.quiet with replies := replies, baud := 57600, bits := 8, stop := 1,
                                   grantedBaud := 57600 } }

/-- A reply of chunks, each with its gap. -/
def answer (chunks : List (Nat × List Byte)) : Reply := ⟨true, chunks.map (fun c => ⟨c.1, c.2⟩)⟩

/-- A test of the state an outcome gives. -/
def nextIs (o : Host.Outcome State Fault Refusal) (f : State → Bool) : Bool :=
  match o with
  | .next t => f t
  | .fault _ => false
  | .refused _ => false

/-- The command of these bytes, requested from a block, by one step. -/
def command (bytes : List Byte) (s : State) (f : State → Bool) : Bool :=
  nextIs (step { s with port := [.command bytes] }) f

/-- The bytes are exactly this instruction's words. -/
def wordsOf (bytes : List Byte) (i : Instr) : Bool :=
  match decode bytes with
  | .ok j => j = i && encode i = some bytes
  | .error _ => false

/-- The bytes are exactly this wire instruction's frame. -/
def frameIs (bytes : List Byte) (i : Instr) : Bool :=
  match decodeWire Config.defaultCodes bytes with
  | .ok j => j = i && encodeWire Config.defaultCodes i = some bytes
  | .error _ => false

/-- The call expands to this command, and the bytes are that command's words. -/
def expandsTo (call i : Instr) (bytes : List Byte) : Bool :=
  expand Config.defaultParams 1000 call = some i && wordsOf bytes i

/-! Frames of 95_test_vectors 2.4. -/

def e1 : List Byte := [0xFF, 0xFF, 0xFD, 0x00, 0x01, 0x07, 0x00, 0x02, 0x84, 0x00, 0x04, 0x00, 0x1D, 0x15]
def e2 : List Byte :=
  [0xFF, 0xFF, 0xFD, 0x00, 0x01, 0x12, 0x00, 0x06, 0x7A, 0x02, 0xFF, 0xFF, 0xFD, 0xFD, 0xFF, 0xFF, 0xFD,
   0xFD, 0xFF, 0xFF, 0xFD, 0xFD, 0xFF, 0xBD, 0xFC]
def e3 : List Byte := [0xFF, 0xFF, 0xFD, 0x00, 0x01, 0x03, 0x00, 0x01, 0x19, 0x4E]
def f1 : List Byte := [0xFF, 0xFF, 0xFD, 0x00, 0x01, 0x07, 0x00, 0x55, 0x00, 0x06, 0x04, 0x26, 0x65, 0x5D]
def f2 : List Byte :=
  [0xFF, 0xFF, 0xFD, 0x00, 0x01, 0x08, 0x00, 0x55, 0x00, 0x5D, 0x0E, 0x00, 0x00, 0x7C, 0x9C]
/-- Vector D6: `f2` with byte 9 changed. -/
def d6 : List Byte :=
  [0xFF, 0xFF, 0xFD, 0x00, 0x01, 0x08, 0x00, 0x55, 0x00, 0x5C, 0x0E, 0x00, 0x00, 0x7C, 0x9C]
def f3 : List Byte := [0xFF, 0xFF, 0xFD, 0x00, 0x01, 0x04, 0x00, 0x55, 0x00, 0xA1, 0x0C]
def f4 : List Byte :=
  [0xFF, 0xFF, 0xFD, 0x00, 0x01, 0x09, 0x00, 0x55, 0x00, 0xFF, 0xFF, 0xFD, 0xFD, 0x01, 0xDD, 0x1C]
def f5 : List Byte :=
  [0xFF, 0xFF, 0xFD, 0x00, 0x01, 0x08, 0x00, 0x55, 0xFF, 0xFF, 0xFD, 0xFD, 0x07, 0x85, 0x9E]
def f6 : List Byte := [0xFF, 0xFF, 0xFD, 0x00, 0x01, 0x04, 0x00, 0x55, 0x80, 0xA2, 0x8F]
def f7 : List Byte :=
  [0xFF, 0xFF, 0xFD, 0x00, 0x02, 0x08, 0x00, 0x55, 0x00, 0x5D, 0x0E, 0x00, 0x00, 0xDC, 0x96]
def f8 : List Byte := [0xFF, 0xFF, 0xFD, 0x00, 0x02, 0x04, 0x00, 0x55, 0x80, 0x2A, 0x8F]
def f9 : List Byte := [0xFF, 0xFF, 0xFD, 0x00, 0x01, 0x05, 0x00, 0x55, 0x00, 0x19, 0x06, 0xA1]
def f10 : List Byte :=
  [0xFF, 0xFF, 0xFD, 0x00, 0x01, 0x19, 0x00, 0x55, 0x00, 0x01, 0x02, 0x03, 0x04, 0x05, 0x06, 0x07, 0x08,
   0x09, 0x0A, 0x0B, 0x0C, 0x0D, 0x0E, 0x0F, 0x10, 0x11, 0x12, 0x13, 0x14, 0x15, 0xF9, 0x18]

/-- The READ of every program: `XCHG id=1, instr=READ, p=[84 00 04 00], wait_us=1000`. -/
def readWords : List Byte :=
  [0x10, 0x01, 0x02, 0x04, 0x00, 0x84, 0x00, 0x04, 0x00, 0xE8, 0x03, 0x00, 0x00, 0x00]

/-! ## WellFormed: every check refuses an ill-formed term (R73, R62) -/

/-- An operand list of `n` zero bytes. -/
def zeros (n : Nat) : List Byte := List.replicate n 0

theorem stuffFrom_zeros (n : Nat) : stuffFrom 0 0 (zeros n) = zeros n := by
  induction n with
  | zero => rfl
  | succ n ih => exact congrArg (0#8 :: ·) ih

theorem zeros_length (n : Nat) : (zeros n).length = n := by simp [zeros]

/-- One byte too many for a u16 length, at `n = 65536`. -/
theorem test_list_check_refuses (id ins mult : Byte) (wait : Word40) (n : Nat) (h : 65535 < n) :
    (Instr.crc16 (zeros n)).wellFormed = false ∧ (Instr.u16 (zeros n)).wellFormed = false ∧
    (Instr.u32 (zeros n)).wellFormed = false ∧ (Instr.s16 (zeros n)).wellFormed = false ∧
    (Instr.s32 (zeros n)).wellFormed = false ∧ (Instr.stuff (zeros n)).wellFormed = false ∧
    (Instr.encode id ins (zeros n)).wellFormed = false ∧
    (Instr.hdrfind (zeros n)).wellFormed = false ∧ (Instr.destuff (zeros n)).wellFormed = false ∧
    (Instr.decode (zeros n)).wellFormed = false ∧
    (Instr.xchg id ins (zeros n) wait).wellFormed = false ∧
    (Instr.xchgr id ins (zeros n) mult mult).wellFormed = false := by
  have hf : listFits (zeros n) = false := by simp [listFits, zeros_length, h]
  exact ⟨hf, hf, hf, hf, hf, hf, hf, hf, hf, hf, hf, hf⟩

/-- A write's payload has two address bytes before its data: 65533 data bytes fit, 65534 do not. -/
theorem test_call_check_refuses (f : Form) (id m k : Byte) (addr : Word16) (n : Nat) :
    (Instr.write f id addr (zeros n) m k).wellFormed = decide (n + 2 ≤ 65535) ∧
    (Instr.regwrite f id addr (zeros n) m k).wellFormed = decide (n + 2 ≤ 65535) := by
  constructor <;> exact congrArg (fun l => decide (l + 2 ≤ 65535)) (zeros_length n)

/-- The length field is `S + 3` (R62): a payload of 65532 bytes has a frame, one of 65533 has none. -/
theorem test_frame_check_refuses (id : Byte) (n : Nat) :
    (Instr.wWrite id 0 (zeros n)).wellFormed = decide (n + 2 + 3 ≤ 65535) ∧
    (Instr.wRegWrite id 0 (zeros n)).wellFormed = decide (n + 2 + 3 ≤ 65535) ∧
    (Instr.wStatus id 0 (zeros n)).wellFormed = decide (n + 1 + 3 ≤ 65535) := by
  have h (k : Nat) : payloadFits (zeros k) = decide (k + 3 ≤ 65535) :=
    congrArg (fun l => decide (l + 3 ≤ 65535))
      ((congrArg List.length (stuffFrom_zeros k)).trans (zeros_length k))
  exact ⟨h (n + 2), h (n + 2), h (n + 1)⟩

/-! ## Decoding: words written out from R73, R74, R60, R63, R68, R84 -/

theorem test_command_words :
    wordsOf [0x01, 0x02, 0x00, 0x55, 0x44] (.crc16 [0x55, 0x44]) ∧
    wordsOf [0x02, 0x34, 0x12] (.le16 0x1234) ∧
    wordsOf [0x03, 0x78, 0x56, 0x34, 0x12] (.le32 0x12345678) ∧
    wordsOf [0x04, 0x02, 0x00, 0x34, 0x12] (.u16 [0x34, 0x12]) ∧
    wordsOf [0x05, 0x04, 0x00, 0x5D, 0x0E, 0x00, 0x00] (.u32 [0x5D, 0x0E, 0x00, 0x00]) ∧
    wordsOf [0x06, 0x02, 0x00, 0x9C, 0xFF] (.s16 [0x9C, 0xFF]) ∧
    wordsOf [0x07, 0x04, 0x00, 0x5D, 0x0E, 0x00, 0x00] (.s32 [0x5D, 0x0E, 0x00, 0x00]) ∧
    wordsOf [0x08, 0x03, 0x00, 0xFF, 0xFF, 0xFD] (.stuff [0xFF, 0xFF, 0xFD]) ∧
    wordsOf [0x0A, 0x02, 0x00, 0xFF, 0xFD] (.hdrfind [0xFF, 0xFD]) ∧
    wordsOf [0x0B, 0x01, 0x00, 0x41] (.destuff [0x41]) ∧
    wordsOf [0x0C, 0x03, 0x00, 0xFF, 0xFF, 0xFD] (.decode [0xFF, 0xFF, 0xFD]) := by decide

theorem test_session_words :
    wordsOf [0x09, 0x01, 0x06, 0x0C, 0x00, 0x7A, 0x02, 0xFF, 0xFF, 0xFD, 0xFF, 0xFF, 0xFD, 0xFF, 0xFF,
      0xFD, 0xFF]
      (.encode 1 6 [0x7A, 0x02, 0xFF, 0xFF, 0xFD, 0xFF, 0xFF, 0xFD, 0xFF, 0xFF, 0xFD, 0xFF]) ∧
    wordsOf readWords (.xchg 1 2 [0x84, 0x00, 0x04, 0x00] 1000) ∧
    wordsOf [0x11, 0x01, 0x02, 0x04, 0x00, 0x84, 0x00, 0x04, 0x00, 0x0A, 0x02]
      (.xchgr 1 2 [0x84, 0x00, 0x04, 0x00] 10 2) ∧
    wordsOf [0x20, 0x20, 0x00, 0xE8, 0x03, 0x00, 0x00, 0x00, 0xE1, 0x00, 0x00, 0x08, 0x01, 0x00]
      (.init 32 1000 57600 8 1 0) ∧
    wordsOf [0x21, 0x40, 0x42, 0x0F, 0x00] (.setbaud 1000000) := by decide

theorem test_undecodable_commands :
    decode [] = .error .empty ∧ decode [0x00] = .error (.illegalCommand 0x00) ∧
    decode [0x0D, 0x01] = .error (.illegalCommand 0x0D) ∧
    decode [0x22] = .error (.illegalCommand 0x22) ∧
    decode [0x02, 0x34] = .error (.truncated 0x02) ∧
    decode [0x01, 0x03, 0x00, 0x55, 0x44] = .error (.truncated 0x01) ∧
    decode [0x02, 0x34, 0x12, 0x00] = .error (.trailing 0x02) := ⟨rfl, rfl, rfl, rfl, rfl, rfl, rfl⟩

/-- S3, E2 to E5; the frames of W.REG_WRITE, W.ACTION, W.REBOOT carry a checksum computed by R90. -/
theorem test_wire_frames :
    frameIs e3 (.wPing 1) ∧ frameIs e1 (.wRead 1 0x84 4) ∧
    frameIs [0xFF, 0xFF, 0xFD, 0x00, 0x01, 0x06, 0x00, 0x03, 0x40, 0x00, 0x01, 0xDB, 0x66]
      (.wWrite 1 0x40 [0x01]) ∧
    frameIs f2 (.wStatus 1 0x00 [0x5D, 0x0E, 0x00, 0x00]) ∧
    (encodeWire Config.defaultCodes (.wRegWrite 1 0x40 [0x01])).map (·.take 11) =
      some [0xFF, 0xFF, 0xFD, 0x00, 0x01, 0x06, 0x00, 0x04, 0x40, 0x00, 0x01] ∧
    (encodeWire Config.defaultCodes (.wAction 1)).map (·.take 8) =
      some [0xFF, 0xFF, 0xFD, 0x00, 0x01, 0x03, 0x00, 0x05] ∧
    (encodeWire Config.defaultCodes (.wFactoryReset 1 0xFF)).map (·.take 9) =
      some [0xFF, 0xFF, 0xFD, 0x00, 0x01, 0x04, 0x00, 0x06, 0xFF] ∧
    (encodeWire Config.defaultCodes (.wReboot 0xFE)).map (·.take 8) =
      some [0xFF, 0xFF, 0xFD, 0x00, 0xFE, 0x03, 0x00, 0x08] := by decide +kernel

theorem test_call_expansions :
    expandsTo (.ping .retried 1 2 3) (.xchgr 1 1 [] 2 3) [0x11, 0x01, 0x01, 0x00, 0x00, 0x02, 0x03] ∧
    expandsTo (.read .single 1 0x84 4 0 0) (.xchg 1 2 [0x84, 0x00, 0x04, 0x00] 1000) readWords ∧
    expandsTo (.write .retried 1 0x40 [0x01] 0 0) (.xchgr 1 3 [0x40, 0x00, 0x01] 0 0)
      [0x11, 0x01, 0x03, 0x03, 0x00, 0x40, 0x00, 0x01, 0x00, 0x00] ∧
    expandsTo (.regwrite .retried 1 0x40 [0x01] 0 0) (.xchgr 1 4 [0x40, 0x00, 0x01] 0 0)
      [0x11, 0x01, 0x04, 0x03, 0x00, 0x40, 0x00, 0x01, 0x00, 0x00] ∧
    expandsTo (.action .retried 0xFE 0 1) (.xchgr 0xFE 5 [] 0 1)
      [0x11, 0xFE, 0x05, 0x00, 0x00, 0x00, 0x01] ∧
    expandsTo (.freset .retried 1 0xFF 0 0) (.xchgr 1 6 [0xFF] 0 0)
      [0x11, 0x01, 0x06, 0x01, 0x00, 0xFF, 0x00, 0x00] ∧
    expandsTo (.reboot .single 1 2 0) (.xchg 1 8 [] 2000)
      [0x10, 0x01, 0x08, 0x00, 0x00, 0xD0, 0x07, 0x00, 0x00, 0x00] := by decide +kernel

/-- The addresses and widths are the defaults of R196; V8, V13 and step 5 to 9 of P12 for the writes. -/
theorem test_accessor_expansions :
    expandsTo (.getTorqueEnable .retried 1 0 0) (.xchgr 1 2 [64, 0, 1, 0] 0 0)
      [0x11, 1, 2, 4, 0, 64, 0, 1, 0, 0, 0] ∧
    expandsTo (.setTorqueEnable .retried 1 false 0 0) (.xchgr 1 3 [0x40, 0x00, 0x00] 0 0)
      [0x11, 1, 3, 3, 0, 0x40, 0, 0, 0, 0] ∧
    expandsTo (.getPosition .retried 1 0 0) (.xchgr 1 2 [0x84, 0, 4, 0] 0 0)
      [0x11, 1, 2, 4, 0, 0x84, 0, 4, 0, 0, 0] ∧
    expandsTo (.getVelocity .retried 1 0 0) (.xchgr 1 2 [128, 0, 4, 0] 0 0)
      [0x11, 1, 2, 4, 0, 128, 0, 4, 0, 0, 0] ∧
    expandsTo (.getCurrent .retried 1 0 0) (.xchgr 1 2 [126, 0, 2, 0] 0 0)
      [0x11, 1, 2, 4, 0, 126, 0, 2, 0, 0, 0] ∧
    expandsTo (.getTemperature .retried 1 0 0) (.xchgr 1 2 [146, 0, 1, 0] 0 0)
      [0x11, 1, 2, 4, 0, 146, 0, 1, 0, 0, 0] ∧
    expandsTo (.getDelayTime .retried 1 0 0) (.xchgr 1 2 [9, 0, 1, 0] 0 0)
      [0x11, 1, 2, 4, 0, 9, 0, 1, 0, 0, 0] ∧
    expandsTo (.setDelayTime .retried 1 250 0 0) (.xchgr 1 3 [0x09, 0x00, 0x7D] 0 0)
      [0x11, 1, 3, 3, 0, 9, 0, 0x7D, 0, 0] ∧
    expandsTo (.getDriveMode .retried 1 0 0) (.xchgr 1 2 [10, 0, 1, 0] 0 0)
      [0x11, 1, 2, 4, 0, 10, 0, 1, 0, 0, 0] ∧
    expandsTo (.getOperatingMode .retried 1 0 0) (.xchgr 1 2 [11, 0, 1, 0] 0 0)
      [0x11, 1, 2, 4, 0, 11, 0, 1, 0, 0, 0] ∧
    expandsTo (.setOperatingMode .retried 1 3 0 0) (.xchgr 1 3 [0x0B, 0x00, 0x03] 0 0)
      [0x11, 1, 3, 3, 0, 11, 0, 3, 0, 0] ∧
    expandsTo (.getBaudRate .retried 1 0 0) (.xchgr 1 2 [8, 0, 1, 0] 0 0)
      [0x11, 1, 2, 4, 0, 8, 0, 1, 0, 0, 0] ∧
    expandsTo (.setBaudRate .retried 1 3 0 0) (.xchgr 1 3 [0x08, 0x00, 0x03] 0 0)
      [0x11, 1, 3, 3, 0, 8, 0, 3, 0, 0] ∧
    expand Config.defaultParams 1000 (.setDelayTime .retried 1 511 0 0) = none ∧
    expand Config.defaultParams 1000 (.configure .retried 1 1000000 250 3) = none := by decide +kernel

/-- R83, R84: the textual form. -/
theorem test_text :
    (Instr.crc16 [0x55, 0x44]).text = "CRC16 data=[55 44]" ∧
    (Instr.read .single 1 0x84 4 0 0).text = "READ.1 id=1, addr=132, len=4, m=0, n=0" := by
  decide +kernel

/-- The host's words: a table word of 8 bits with operand bytes of zeros is fetched and run by the very
next step (log 2, log 12). -/
theorem test_fetch_word :
    decodeTableWord 8 0x20 = some (.init 0 0 0 0 0 0) ∧ decodeTableWord 8 0x55 = some (.wStatus 0 0 []) ∧
    decodeTableWord 8 0x0D = none ∧
    nextIs (step (State.reset.withFetchWord 8 0x55)) (fun t => t.line.avail.length = 11) ∧
    nextIs (step (State.reset.withFetchWord 8 0x20)) (fun t => t.cfg.ready && t.port = []) ∧
    nextIs (step (State.reset.withFetchWord 8 0x01)) (fun t => t.result = ⟨.success, [0, 0]⟩) ∧
    nextIs (step (State.reset.withFetchWord 8 0x11)) (fun t => t.result = ⟨.refused, []⟩) := by
  decide +kernel

/-! ## Checksum Engine, Byte-Pair Codec (2.1, 2.2) -/

/-- K1 to K13. -/
theorem test_checksum_vectors :
    crc16 [] = 0x0000 ∧ crc16 [0x00] = 0x0000 ∧ crc16 [0x00, 0x55] = 0x01FE ∧ crc16 [0x01] = 0x8005 ∧
    crc16 [0x55] = 0x01FE ∧ crc16 [0x55, 0x44] = 0x7F9D ∧ crc16 [0x44, 0x55] = 0x19FB ∧
    crc16 [0x80] = 0x8303 ∧ crc16 [0xFF] = 0x0202 ∧ crc16 [0x54] = 0x81FB ∧
    crc16 [0xFF, 0xFF, 0xFD, 0x00] = 0x0E28 ∧ crc16 (e1.take 12) = 0x151D ∧
    crc16 [0x31, 0x32, 0x33, 0x34, 0x35, 0x36, 0x37, 0x38, 0x39] = 0xFEE8 ∧
    crcFrom 0x01FE [0x44] = 0x7F9D := by decide +kernel

/-- B1 to B15. -/
theorem test_byte_pair_vectors :
    le16 0x1234 = [0x34, 0x12] ∧ le16 7 = [0x07, 0x00] ∧
    le32 0x12345678 = [0x78, 0x56, 0x34, 0x12] ∧
    u16Of [0x34, 0x12] = some 4660 ∧ u16Of [0xFF, 0xFF] = some 65535 ∧
    s16Of [0xFF, 0xFF] = some (-1) ∧ s16Of [0x00, 0x80] = some (-32768) ∧
    s16Of [0xFF, 0x7F] = some 32767 ∧ s16Of [0x9C, 0xFF] = some (-100) ∧
    u32Of [0x5D, 0x0E, 0x00, 0x00] = some 3677 ∧
    u32Of [0xFF, 0xFF, 0xFF, 0xFF] = some 4294967295 ∧
    s32Of [0xFF, 0xFF, 0xFF, 0xFF] = some (-1) ∧
    s32Of [0x00, 0x00, 0x00, 0x80] = some (-2147483648) ∧
    s32Of [0xFF, 0xFF, 0xFF, 0x7F] = some 2147483647 ∧
    s32Of [0x9C, 0xFF, 0xFF, 0xFF] = some (-100) := by decide

theorem test_exec_crc16 :
    command [0x01, 0x02, 0x00, 0x55, 0x44] State.reset
      (fun t => t.result = ⟨.success, [0x9D, 0x7F]⟩) := by decide +kernel

theorem test_exec_le16 :
    command [0x02, 0x34, 0x12] State.reset
      (fun t => t.result = ⟨.success, [0x02, 0x00, 0x34, 0x12]⟩) := by decide +kernel

theorem test_exec_le32 :
    command [0x03, 0x78, 0x56, 0x34, 0x12] State.reset
      (fun t => t.result = ⟨.success, [0x04, 0x00, 0x78, 0x56, 0x34, 0x12]⟩) := by decide +kernel

theorem test_exec_u16 :
    command [0x04, 0x02, 0x00, 0x34, 0x12] State.reset
      (fun t => t.result = ⟨.success, [0x34, 0x12]⟩) := by decide +kernel

/-- R230 BadLength. -/
theorem test_exec_u16_bad_length :
    command [0x04, 0x01, 0x00, 0x34] State.reset (fun t => t.result = ⟨.refused, []⟩) := by
  decide +kernel

theorem test_exec_u32 :
    command [0x05, 0x04, 0x00, 0x5D, 0x0E, 0x00, 0x00] State.reset
      (fun t => t.result = ⟨.success, [0x5D, 0x0E, 0x00, 0x00]⟩) := by decide +kernel

theorem test_exec_s16 :
    command [0x06, 0x02, 0x00, 0x9C, 0xFF] State.reset
      (fun t => t.result = ⟨.success, [0x9C, 0xFF]⟩) := by decide +kernel

/-- P1. -/
theorem test_exec_s32 :
    command [0x07, 0x04, 0x00, 0x5D, 0x0E, 0x00, 0x00] State.reset
      (fun t => t.result = ⟨.success, [0x5D, 0x0E, 0x00, 0x00]⟩) := by decide +kernel

/-! ## Frame Codec (2.3 to 2.7) -/

/-- T1 to T11. -/
theorem test_stuff_vectors :
    stuff [] = [] ∧ stuff [0xFF] = [0xFF] ∧ stuff [0xFF, 0xFF] = [0xFF, 0xFF] ∧
    stuff [0xFF, 0xFF, 0xFD] = [0xFF, 0xFF, 0xFD, 0xFD] ∧
    stuff [0xFF, 0xFF, 0xFD, 0xFD] = [0xFF, 0xFF, 0xFD, 0xFD, 0xFD] ∧
    stuff [0xFF, 0xFF, 0xFF, 0xFD] = [0xFF, 0xFF, 0xFF, 0xFD, 0xFD] ∧
    stuff [0xFF, 0xFF, 0xFD, 0xFF, 0xFF, 0xFD] = [0xFF, 0xFF, 0xFD, 0xFD, 0xFF, 0xFF, 0xFD, 0xFD] ∧
    stuff [0xFD, 0xFF, 0xFF, 0xFD, 0x00] = [0xFD, 0xFF, 0xFF, 0xFD, 0xFD, 0x00] ∧
    stuff [0xFF, 0xFD, 0xFF, 0xFF] = [0xFF, 0xFD, 0xFF, 0xFF] ∧
    stuff [0x7A, 0x02, 0xFF, 0xFF, 0xFD, 0xFF, 0xFF, 0xFD, 0xFF, 0xFF, 0xFD, 0xFF] =
      [0x7A, 0x02, 0xFF, 0xFF, 0xFD, 0xFD, 0xFF, 0xFF, 0xFD, 0xFD, 0xFF, 0xFF, 0xFD, 0xFD, 0xFF] := by
  decide

/-- X1 to X10. -/
theorem test_destuff_vectors :
    destuff [] = [] ∧ destuff [0xFF, 0xFF] = [0xFF, 0xFF] ∧
    destuff [0xFF, 0xFF, 0xFD] = [0xFF, 0xFF, 0xFD] ∧
    destuff [0xFF, 0xFF, 0xFD, 0xFD] = [0xFF, 0xFF, 0xFD] ∧
    destuff [0xFF, 0xFF, 0xFD, 0x41] = [0xFF, 0xFF, 0xFD] ∧
    destuff [0xFF, 0xFF, 0xFD, 0xFD, 0xFD] = [0xFF, 0xFF, 0xFD, 0xFD] ∧
    destuff [0xFF, 0xFF, 0xFD, 0xFF, 0xFF, 0xFD, 0x07] = [0xFF, 0xFF, 0xFD, 0xFF, 0xFD] ∧
    destuff [0xFD, 0xFF, 0xFF, 0xFD, 0xFF, 0xFF, 0xFD, 0x00, 0xFF, 0xFD] =
      [0xFD, 0xFF, 0xFF, 0xFD, 0xFF, 0xFD, 0xFF, 0xFD] ∧
    destuff [0x00, 0xFF, 0xFF, 0xFD, 0xFD, 0x01] = [0x00, 0xFF, 0xFF, 0xFD, 0x01] := by decide

/-- H1 to H9. -/
theorem test_hdrfind_vectors :
    hdrfind [] = none ∧ hdrfind [0xFF, 0xFF, 0xFD] = none ∧
    hdrfind [0xFF, 0xFF, 0xFD, 0x00] = some 0 ∧
    hdrfind [0x12, 0x34, 0xFF, 0xFF, 0xFD, 0x00, 0x01] = some 2 ∧
    hdrfind [0x41, 0x42, 0xFF, 0xFF, 0xFD] = none ∧
    hdrfind [0xFF, 0xFF, 0xFD, 0x01, 0x01, 0x04, 0x00, 0x55, 0x00, 0x00, 0x00] = none ∧
    hdrfind [0xFF, 0xFF, 0xFF, 0xFD, 0x00] = some 1 ∧
    hdrfind [0xFF, 0xFF, 0xFD, 0xFD, 0x00] = none ∧
    hdrfind [0xFF, 0xFF, 0xFD, 0x00, 0x09, 0x03, 0x00, 0x01, 0x02, 0x03, 0xFF, 0xFF, 0xFD, 0x00, 0x01] =
      some 0 := by decide

/-- E1 to E5, E9, E12, E16; F1 to F10. -/
theorem test_encode_vectors :
    frameOf 1 2 [0x84, 0x00, 0x04, 0x00] = e1 ∧
    frameOf 1 6 [0x7A, 0x02, 0xFF, 0xFF, 0xFD, 0xFF, 0xFF, 0xFD, 0xFF, 0xFF, 0xFD, 0xFF] = e2 ∧
    frameOf 1 1 [] = e3 ∧
    frameOf 0xFE 1 [] = [0xFF, 0xFF, 0xFD, 0x00, 0xFE, 0x03, 0x00, 0x01, 0x31, 0x42] ∧
    frameOf 1 3 [0x40, 0x00, 0x01] =
      [0xFF, 0xFF, 0xFD, 0x00, 0x01, 0x06, 0x00, 0x03, 0x40, 0x00, 0x01, 0xDB, 0x66] ∧
    frameOf 1 3 [0xFF, 0xFF, 0xFD] =
      [0xFF, 0xFF, 0xFD, 0x00, 0x01, 0x07, 0x00, 0x03, 0xFF, 0xFF, 0xFD, 0xFD, 0x7C, 0xD1] ∧
    frameOf 0xFF 0xFF [0xFF, 0xFD, 0x00] =
      [0xFF, 0xFF, 0xFD, 0x00, 0xFF, 0x06, 0x00, 0xFF, 0xFF, 0xFD, 0x00, 0x16, 0x20] ∧
    frameOf 1 0x55 [0x00, 0x06, 0x04, 0x26] = f1 ∧ frameOf 1 0x55 [0x00, 0x5D, 0x0E, 0x00, 0x00] = f2 ∧
    frameOf 1 0x55 [0x00] = f3 ∧ frameOf 1 0x55 [0x00, 0xFF, 0xFF, 0xFD, 0x01] = f4 ∧
    frameOf 1 0x55 [0xFF, 0xFF, 0xFD, 0x07] = f5 ∧ frameOf 1 0x55 [0x80] = f6 ∧
    frameOf 2 0x55 [0x00, 0x5D, 0x0E, 0x00, 0x00] = f7 ∧ frameOf 2 0x55 [0x80] = f8 ∧
    frameOf 1 0x55 [0x00, 0x19] = f9 ∧
    frameOf 1 0x55 (0x00 :: (List.range 21).map (fun k => BitVec.ofNat 8 (k + 1))) = f10 := by
  decide +kernel

/-- D1, D4 to D16. -/
theorem test_decode_vectors :
    decodeFrameBytes f2 = .success ⟨0, 1, 0x55, [0x00, 0x5D, 0x0E, 0x00, 0x00], 0x9C7C, 0x9C7C⟩ ∧
    decodeFrameBytes ([0x12, 0x34] ++ f2) =
      .success ⟨2, 1, 0x55, [0x00, 0x5D, 0x0E, 0x00, 0x00], 0x9C7C, 0x9C7C⟩ ∧
    decodeFrameBytes (f2 ++ [0xAA, 0xBB]) =
      .success ⟨0, 1, 0x55, [0x00, 0x5D, 0x0E, 0x00, 0x00], 0x9C7C, 0x9C7C⟩ ∧
    decodeFrameBytes d6 =
      .checksumMismatch ⟨0, 1, 0x55, [0x00, 0x5C, 0x0E, 0x00, 0x00], 0x087F, 0x9C7C⟩ ∧
    decodeFrameBytes [0xFF, 0xFF, 0xFD, 0x01, 0x01, 0x04, 0x00, 0x55, 0x00, 0x00, 0x00] =
      .headerNotFound 8 ∧
    decodeFrameBytes e3 = .success ⟨0, 1, 1, [], 0x4E19, 0x4E19⟩ ∧
    decodeFrameBytes [0x41, 0x42, 0xFF, 0xFF, 0xFD] = .headerNotFound 2 ∧
    decodeFrameBytes [0xFF, 0xFF, 0xFD, 0x00, 0x01, 0x02, 0x00, 0xAA, 0xBB] = .malformed 0 ∧
    decodeFrameBytes [0xFF, 0xFF, 0xFD, 0x00, 0x01, 0x00, 0x00] = .malformed 0 ∧
    decodeFrameBytes [0xFF, 0xFF, 0xFD, 0x00, 0x01, 0x00] = .incomplete 0 ∧
    decodeFrameBytes ([0xFF, 0xFF, 0xFD, 0x00, 0x09, 0x03, 0x00, 0x01, 0x02, 0x03] ++ f2) =
      .checksumMismatch ⟨0, 9, 1, [], 0x6E1A, 0x0302⟩ ∧
    decodeFrameBytes f5 = .success ⟨0, 1, 0x55, [0xFF, 0xFF, 0xFD, 0x07], 0x9E85, 0x9E85⟩ := by
  decide +kernel

/-- D2, D3. -/
theorem test_decode_prefixes :
    (∀ k < 4, decodeFrameBytes (f2.take k) = .headerNotFound 0) ∧
    (∀ k < 15, 4 ≤ k → decodeFrameBytes (f2.take k) = .incomplete 0) := by decide +kernel

theorem test_exec_stuff :
    command [0x08, 0x03, 0x00, 0xFF, 0xFF, 0xFD] State.reset
      (fun t => t.result = ⟨.success, [0x04, 0x00, 0xFF, 0xFF, 0xFD, 0xFD]⟩) := by decide +kernel

theorem test_exec_destuff :
    command [0x0B, 0x04, 0x00, 0xFF, 0xFF, 0xFD, 0x41] State.reset
      (fun t => t.result = ⟨.success, [0x03, 0x00, 0xFF, 0xFF, 0xFD]⟩) := by decide +kernel

theorem test_exec_hdrfind :
    command [0x0A, 0x05, 0x00, 0xFF, 0xFF, 0xFF, 0xFD, 0x00] State.reset
      (fun t => t.result = ⟨.success, [0x01, 0x01, 0x00]⟩) := by decide +kernel

/-- R230 BufferTooLong: `CAP` is 11 after reset. -/
theorem test_exec_hdrfind_too_long :
    command ([0x0A, 0x0C, 0x00] ++ List.replicate 12 0x00) State.reset
      (fun t => t.result = ⟨.refused, []⟩) := by decide +kernel

/-- P1: ENCODE, with `TXLEN = 25` and the frame in `TXBUF`. -/
theorem test_exec_encode :
    command [0x09, 0x01, 0x06, 0x0C, 0x00, 0x7A, 0x02, 0xFF, 0xFF, 0xFD, 0xFF, 0xFF, 0xFD, 0xFF, 0xFF,
      0xFD, 0xFF] State.reset
      (fun t => t.result = ⟨.success, [0x19, 0x00] ++ e2⟩ && t.tx.len = 25 && t.txBytes = e2 &&
        t.xstate = .idle && t.resp.outcome = .none) := by decide +kernel

/-- P1: DECODE of E2's frame. -/
theorem test_exec_decode :
    command ([0x0C, 0x19, 0x00] ++ e2) (started [])
      (fun t => t.result = ⟨.success, [0x03, 0x00, 0x00, 0x01, 0x06, 0x0C, 0x00, 0x7A, 0x02, 0xFF, 0xFF,
        0xFD, 0xFF, 0xFF, 0xFD, 0xFF, 0xFF, 0xFD, 0xFF, 0xBD, 0xFC, 0xBD, 0xFC]⟩) := by decide +kernel

/-! ## Session commands -/

/-- R187, and the start of every program of part 3. -/
theorem test_exec_init :
    command [0x20, 0x20, 0x00, 0xE8, 0x03, 0x00, 0x00, 0x00, 0xE1, 0x00, 0x00, 0x08, 0x01, 0x00]
      { State.reset with line := { Transport.quiet with grantedBaud := 57600 } }
      (fun t => t.cfg = (started []).cfg && t.line = (started []).line &&
        t.result = ⟨.success, []⟩) := by decide +kernel

/-- R187 (D8): the capacity is raised to the floor. -/
theorem test_exec_init_raises_the_capacity :
    nextIs (exec (.init 5 0 0 0 0 0) State.reset) (fun t => t.cfg.cap = 11) := by decide +kernel

theorem test_exec_setbaud :
    command [0x21, 0x40, 0x42, 0x0F, 0x00] (started [])
      (fun t => t.cfg.baud = 1000000 && t.line.baud = 1000000 && t.result = ⟨.success, []⟩) := by
  decide +kernel

/-- R188: refused before INIT. -/
theorem test_exec_setbaud_before_init :
    command [0x21, 0x40, 0x42, 0x0F, 0x00] State.reset
      (fun t => t.result = ⟨.refused, []⟩ && t.line.baud = 0) := by decide +kernel

/-- P2: noise and a header split over two refills. -/
theorem test_xchgr_split_header :
    command [0x11, 0x01, 0x02, 0x04, 0x00, 0x84, 0x00, 0x04, 0x00, 0x00, 0x00]
      (started [answer [(200, [0x12, 0x34, 0xFF]), (300, [0xFF, 0xFD, 0x00, 0x01, 0x08]),
        (300, [0x00, 0x55, 0x00, 0x5D, 0x0E, 0x00, 0x00, 0x7C, 0x9C])]])
      (fun t => t.resp = ⟨.success, true, 1, 0x55, 0, [0x5D, 0x0E, 0x00, 0x00], 0x9C7C, 0x9C7C⟩ &&
        t.policy = ⟨1, 5⟩ && t.flags = ⟨true, .partialFrame⟩ && t.xstate = .idle && t.rx.len = 15 &&
        t.rxBytes = f2 && t.tx.len = 14 && t.req.wait = 1000 && t.line.avail = [] &&
        t.line.sent = [e1]) := by decide +kernel

/-- P3 with `iters=0`: a checksum fault, silence, Success. -/
theorem test_xchgr_retries :
    nextIs (exec (.xchgr 1 2 [0x84, 0x00, 0x04, 0x00] 0 0)
      (started [answer [(100, d6)], answer [], answer [(100, f2)]]))
      (fun t => t.resp.outcome = .success && t.policy = ⟨3, 5⟩ && t.line.sent = [e1, e1, e1] &&
        t.flags = ⟨false, .seeking⟩) ∧
    nextIs (exec (.xchgr 1 2 [0x84, 0x00, 0x04, 0x00] 0 2)
      (started [answer [(100, d6)], answer [], answer [(100, f2)]]))
      (fun t => t.resp = ⟨.noResponse, false, 0, 0, 0, [], 0, 0⟩ && t.policy = ⟨2, 2⟩ &&
        t.rx.len = 0) ∧
    nextIs (exec (.xchgr 1 2 [0x84, 0x00, 0x04, 0x00] 0 1)
      (started [answer [(100, d6)], answer [], answer [(100, f2)]]))
      (fun t => t.resp =
        ⟨.wrongChecksum, true, 1, 0x55, 0, [0x5C, 0x0E, 0x00, 0x00], 0x087F, 0x9C7C⟩) := by
  decide +kernel

/-- P4 (a), (b), (c): the three quiet-line endings. -/
theorem test_xchg_quiet_line :
    command readWords (started [answer [(100, f2.take 10)]])
      (fun t => t.resp.outcome = .incompleteData && !t.resp.valid && t.rx.len = 10 &&
        t.flags.rstate = .partialFrame) ∧
    command readWords (started [answer [(100, [0x41, 0x42, 0xFF, 0xFF, 0xFD])]])
      (fun t => t.resp.outcome = .noResponse && t.flags = ⟨false, .seeking⟩ &&
        t.rxBytes = [0xFF, 0xFF, 0xFD]) ∧
    command readWords (started [answer []])
      (fun t => t.resp.outcome = .noResponse && t.rx.len = 0) := by decide +kernel

/-- P5 (a), (b): overflow depends on delivery. -/
theorem test_xchg_overflow :
    nextIs (exec (.xchg 1 2 [0x84, 0x00, 0x15, 0x00] 1000) (started [answer [(100, f10 ++ [0xAA])]]))
      (fun t => t.resp.outcome = .oversizedData && !t.resp.valid && t.rxBytes = f10 &&
        t.line.avail = [0xAA]) ∧
    nextIs (exec (.xchg 1 2 [0x84, 0x00, 0x15, 0x00] 1000)
      (started [answer [(100, f10), (500, [0xAA])]]))
      (fun t => t.resp.outcome = .success && t.respPlen = 21 && t.resp.crcCalc = 0x18F9 &&
        t.line.future = [⟨500, [0xAA]⟩]) := by decide +kernel

/-- R52, R143 (b), log 35: a channel that is ready, answers none, and is ready no more, then after 7 microseconds
again; and one that answers none and stays ready. -/
theorem test_read_one_answers_none :
    let l : Transport := { Transport.quiet with avail := [0x41, 0x42], balk := [.withdraws 7, .stays] }
    l.readyNow.1 = true ∧ l.readOne.1 = none ∧ l.readOne.2.readyNow.1 = false ∧
    (l.readOne.2.readyWithin 6).1 = false ∧ (l.readOne.2.readyWithin 7).1 = true ∧
    (l.readOne.2.readyWithin 7).2.readOne.1 = none ∧
    (l.readOne.2.readyWithin 7).2.readOne.2.readOne.1 = some 0x41 := by decide

/-- R145's example, and the free bytes behind it. -/
theorem test_compact :
    let s := compact 2 { started [] with
      rx := ⟨Memory.writeBytes [] 0 [0x12, 0x34, 0xFF, 0xFF, 0xFD, 0x00, 0x01], 7, 0, 0⟩ }
    s.rxBytes = [0xFF, 0xFF, 0xFD, 0x00, 0x01] ∧ s.rx.len = 5 ∧ s.rx.vacated = 32 ∧
    Memory.wf s.rx.mem := by decide +kernel

/-- P6 (a), (b), (c): wrong responder and device error. -/
theorem test_xchg_classification :
    command readWords (started [answer [(100, f7)]])
      (fun t => t.resp = ⟨.wrongId, true, 2, 0x55, 0, [0x5D, 0x0E, 0x00, 0x00], 0x96DC, 0x96DC⟩) ∧
    command readWords (started [answer [(100, f8)]])
      (fun t => t.resp.outcome = .statusError && t.resp.err = 0x80 && t.resp.id = 2 &&
        t.respPlen = 0) ∧
    command readWords (started [answer [(100, f6)]])
      (fun t => t.resp.outcome = .statusError && t.resp.err = 0x80 && t.resp.id = 1) := by
  decide +kernel

/-- P8: the frame behind a bad one in the same burst is not looked at. -/
theorem test_xchg_bad_frame_first :
    command readWords { started [answer [(100, d6 ++ f2)]] with cfg := ⟨64, 1000, 57600, 57600, true⟩ }
      (fun t => t.resp =
        ⟨.wrongChecksum, true, 1, 0x55, 0, [0x5C, 0x0E, 0x00, 0x00], 0x087F, 0x9C7C⟩ &&
        t.rx.len = 30) := by decide +kernel

/-- P9: a send failure, then Success. -/
theorem test_xchgr_send_failure :
    nextIs (exec (.xchgr 1 2 [0x84, 0x00, 0x04, 0x00] 0 2)
      (started [⟨false, []⟩, answer [(100, f2)]]))
      (fun t => t.resp.outcome = .success && t.policy = ⟨2, 2⟩) := by decide +kernel

/-- P10: stuffed parameters in two pieces. -/
theorem test_xchg_stuffed_pieces :
    command readWords (started [answer [(100, f4.take 12), (100, f4.drop 12)]])
      (fun t => t.resp = ⟨.success, true, 1, 0x55, 0, [0xFF, 0xFF, 0xFD, 0x01], 0x1CDD, 0x1CDD⟩) := by
  decide +kernel

/-- P11 (a), (b), (c): the request's own echo, and a malformed length. -/
theorem test_xchg_loopback_and_malformed :
    nextIs (exec (.xchg 1 1 [] 1000) (started [answer [(10, e3)]]))
      (fun t => t.resp = ⟨.wrongChecksum, true, 1, 1, 0, [], 0x4E19, 0x4E19⟩) ∧
    command readWords (started [answer [(10, e1 ++ f2)]])
      (fun t => t.resp.outcome = .statusError && t.resp.err = 0x84 && t.resp.instr = 2 &&
        t.resp.params = [0x00, 0x04, 0x00] && t.line.avail = f2.drop 2) ∧
    nextIs (exec (.xchg 1 1 [] 1000)
      (started [answer [(10, [0xFF, 0xFF, 0xFD, 0x00, 0x01, 0x02, 0x00, 0xAA, 0xBB])]]))
      (fun t => t.resp = ⟨.wrongChecksum, false, 0, 0, 0, [], 0, 0⟩) := by decide +kernel

/-- W1 to W7. -/
theorem test_policy_vectors :
    waitEff 1000 0 = 1000 ∧ waitEff 1000 1 = 1000 ∧ waitEff 1000 10 = 10000 ∧
    waitEff 0xFFFFFFFF 255 = 0xFEFFFFFF01 ∧ itersOf 0 = 5 ∧ itersOf 1 = 1 ∧ itersOf 255 = 255 := by
  decide

/-! ## Wire instructions (log 9) -/

theorem test_exec_wire_frames :
    nextIs (exec (.wPing 1) State.reset) (fun t => t.txBytes = e3) ∧
    nextIs (exec (.wRead 1 0x84 4) State.reset) (fun t => t.txBytes = e1) ∧
    nextIs (exec (.wWrite 1 0x40 [0x01]) State.reset) (fun t => t.txBytes =
      [0xFF, 0xFF, 0xFD, 0x00, 0x01, 0x06, 0x00, 0x03, 0x40, 0x00, 0x01, 0xDB, 0x66]) ∧
    nextIs (exec (.wRegWrite 1 0x40 [0x01]) State.reset) (fun t => t.txByte 7 = 0x04) ∧
    nextIs (exec (.wAction 1) State.reset) (fun t => t.txByte 7 = 0x05 && t.tx.len = 10) ∧
    nextIs (exec (.wFactoryReset 1 0xFF) State.reset) (fun t => t.txByte 7 = 0x06) ∧
    nextIs (exec (.wReboot 1) State.reset) (fun t => t.txByte 7 = 0x08) ∧
    nextIs (step { State.reset with port := [.frame f2] }) (fun t => t.line.avail = f2) := by
  decide +kernel

/-! ## Device Operation Layer (2.9, P7, P12) -/

/-- V1, V2, V4 to V8. -/
theorem test_value_vectors :
    decodeQuantity Config.defaultParams .presentPosition [0x5D, 0x0E, 0x00, 0x00] =
      .rational 323576 1000 ∧
    decodeQuantity Config.defaultParams .presentPosition [0xFF, 0xFF, 0xFF, 0xFF] =
      .rational (-88) 1000 ∧
    decodeQuantity Config.defaultParams .goalPosition [0xFF, 0x0F, 0x00, 0x00] =
      .rational 360360 1000 ∧
    decodeQuantity Config.defaultParams .presentVelocity [0x9C, 0xFF, 0xFF, 0xFF] =
      .rational (-22900) 1000 ∧
    decodeQuantity Config.defaultParams .presentCurrent [0x9C, 0xFF] = .integer (-100) ∧
    decodeQuantity Config.defaultParams .driveMode [0x0D] = .flags true true true ∧
    decodeQuantity Config.defaultParams .driveMode [0x04] = .flags false true false ∧
    decodeQuantity Config.defaultParams .driveMode [0xF2] = .flags false false false := by decide

/-- V9 to V16. -/
theorem test_delay_vectors :
    delayByte Config.defaultParams 0 = some 0x00 ∧ delayByte Config.defaultParams 1 = some 0x01 ∧
    delayByte Config.defaultParams 2 = some 0x01 ∧ delayByte Config.defaultParams 3 = some 0x02 ∧
    delayByte Config.defaultParams 250 = some 0x7D ∧ delayByte Config.defaultParams 509 = some 0xFF ∧
    delayByte Config.defaultParams 510 = some 0xFF ∧ delayByte Config.defaultParams 511 = none ∧
    decodeQuantity Config.defaultParams .delayTime [0x7D] = .natural 250 ∧
    decodeQuantity Config.defaultParams .delayTime [0xFF] = .natural 510 := by decide

/-- R197, R203, R204, R206: what a SET writes. A flag is no temperature, 256 is no mode code. -/
theorem test_encode_quantity :
    encodeQuantity Config.defaultParams .temperature (.natural 25) = some [0x19] ∧
    encodeQuantity Config.defaultParams .torqueEnable (.flag true) = some [0x01] ∧
    encodeQuantity Config.defaultParams .delayTime (.natural 3) = some [0x02] ∧
    encodeQuantity Config.defaultParams .operatingMode (.natural 255) = some [0xFF] ∧
    encodeQuantity Config.defaultParams .operatingMode (.natural 256) = none ∧
    encodeQuantity Config.defaultParams .temperature (.flag true) = none := by decide

/-- R73: 65535 bytes are the longest list a u16 length prefix can say. -/
theorem test_length_prefix :
    lengthPrefix 65535 = [0xFF, 0xFF] ∧ blob [0x41, 0x42] = [0x02, 0x00, 0x41, 0x42] := by
  decide +kernel

/-- The block answers the next request with this status payload. -/
def answering (payload : List Byte) : State := started [answer [(100, frameOf 1 0x55 payload)]]

theorem test_plain_calls :
    nextIs (exec (.ping .retried 1 0 0) (answering [0x00, 0x06, 0x04, 0x26]))
      (fun t => t.device = ⟨.success, .none⟩ && t.resp.params = [0x06, 0x04, 0x26]) ∧
    nextIs (exec (.write .single 1 0x40 [0x01] 0 0) (answering [0x00]))
      (fun t => t.device = ⟨.success, .none⟩ && t.req.payload = [0x40, 0x00, 0x01]) ∧
    nextIs (exec (.regwrite .retried 1 0x40 [0x01] 0 0) (answering [0x00]))
      (fun t => t.device = ⟨.success, .none⟩ && t.req.instr = 0x04) ∧
    nextIs (exec (.action .retried 1 0 0) (answering [0x00]))
      (fun t => t.device = ⟨.success, .none⟩ && t.req.instr = 0x05) ∧
    nextIs (exec (.freset .retried 1 0xFF 0 0) (answering [0x00]))
      (fun t => t.device = ⟨.success, .none⟩ && t.req.payload = [0xFF]) ∧
    nextIs (exec (.reboot .retried 1 0 1) (answering [0x80]))
      (fun t => t.device = ⟨.statusError, .none⟩ && t.req.instr = 0x08) := by decide +kernel

/-- P7, first and second command: a late response is taken by the next exchange. -/
theorem test_read_takes_a_late_response :
    nextIs (exec (.read .single 1 0x84 4 0 0) (started [answer [(1500, f2)], answer [(100, f9)]]))
      (fun t => t.device = ⟨.noResponse, .none⟩ && t.line.future = [⟨500, f2⟩]) ∧
    nextIs (exec (.read .single 1 0x92 1 0 0)
      { started [answer [(100, f9)]] with line :=
        { (started [answer [(100, f9)]]).line with future := [⟨500, f2⟩] } })
      (fun t => t.resp.outcome = .success && t.respPlen = 4 &&
        t.device = ⟨.wrongParameter, .none⟩) := by decide +kernel

theorem test_get_calls :
    nextIs (exec (.getTorqueEnable .retried 1 0 0) (answering [0x00, 0x01]))
      (fun t => t.device = ⟨.success, .flag true⟩) ∧
    nextIs (exec (.getPosition .retried 1 0 0) (answering [0x00, 0x5D, 0x0E, 0x00, 0x00]))
      (fun t => t.device = ⟨.success, .rational 323576 1000⟩) ∧
    nextIs (exec (.getVelocity .retried 1 0 0) (answering [0x00, 0x64, 0x00, 0x00, 0x00]))
      (fun t => t.device = ⟨.success, .rational 22900 1000⟩) ∧
    nextIs (exec (.getCurrent .retried 1 0 0) (answering [0x00, 0x9C, 0xFF]))
      (fun t => t.device = ⟨.success, .integer (-100)⟩) ∧
    nextIs (exec (.getTemperature .single 1 0 0) (answering [0x00, 0x19]))
      (fun t => t.device = ⟨.success, .natural 25⟩) ∧
    nextIs (exec (.getDelayTime .retried 1 0 0) (answering [0x00, 0x7D]))
      (fun t => t.device = ⟨.success, .natural 250⟩) ∧
    nextIs (exec (.getDriveMode .retried 1 0 0) (answering [0x00, 0x04]))
      (fun t => t.device = ⟨.success, .flags false true false⟩) ∧
    nextIs (exec (.getOperatingMode .retried 1 0 0) (answering [0x00, 0x03]))
      (fun t => t.device = ⟨.success, .natural 3⟩) ∧
    nextIs (exec (.getBaudRate .retried 1 0 0) (answering [0x00, 0x01]))
      (fun t => t.device = ⟨.success, .natural 1⟩) := by decide +kernel

/-- R84, R196: an accessor request reads or writes at the row of its quantity: goal position at 116, four
bytes; temperature at 146, one byte. -/
theorem test_accessor_requests :
    nextIs (step { answering [0x00, 0x5D, 0x0E, 0x00, 0x00] with
      port := [.access (.get .retried .goalPosition 1 0 0)] })
      (fun t => t.device = ⟨.success, .rational 323576 1000⟩ &&
        t.req.payload = [0x74, 0x00, 0x04, 0x00] && t.port = []) ∧
    nextIs (step { answering [0x00] with
      port := [.access (.set .single .temperature 1 (.natural 25) 0 0)] })
      (fun t => t.device = ⟨.success, .none⟩ && t.req.payload = [0x92, 0x00, 0x19] &&
        t.req.instr = 0x03) := by decide +kernel

/-- The frames are those of P12, steps 5, 6, 8, 9. -/
theorem test_set_calls :
    nextIs (exec (.setTorqueEnable .retried 1 false 0 0) (answering [0x00]))
      (fun t => t.device = ⟨.success, .none⟩ && t.line.sent =
        [[0xFF, 0xFF, 0xFD, 0x00, 0x01, 0x06, 0x00, 0x03, 0x40, 0x00, 0x00, 0xDE, 0xE6]]) ∧
    nextIs (exec (.setBaudRate .retried 1 3 0 0) (answering [0x00]))
      (fun t => t.device = ⟨.success, .none⟩ && t.line.sent =
        [[0xFF, 0xFF, 0xFD, 0x00, 0x01, 0x06, 0x00, 0x03, 0x08, 0x00, 0x03, 0x74, 0xE3]]) ∧
    nextIs (exec (.setDelayTime .retried 1 250 0 0) (answering [0x00]))
      (fun t => t.device = ⟨.success, .none⟩ && t.line.sent =
        [[0xFF, 0xFF, 0xFD, 0x00, 0x01, 0x06, 0x00, 0x03, 0x09, 0x00, 0x7D, 0x67, 0x62]]) ∧
    nextIs (exec (.setOperatingMode .retried 1 3 0 0) (answering [0x00]))
      (fun t => t.device = ⟨.success, .none⟩ && t.line.sent =
        [[0xFF, 0xFF, 0xFD, 0x00, 0x01, 0x06, 0x00, 0x03, 0x0B, 0x00, 0x03, 0x48, 0xE3]]) ∧
    nextIs (exec (.setDelayTime .retried 1 511 0 0) (answering [0x00]))
      (fun t => t.device = ⟨.refused, .none⟩ && t.line.sent = []) := by decide +kernel

/-- P12. -/
theorem test_configure :
    nextIs (exec (.configure .retried 1 1000000 250 3)
      (started (List.replicate 5 (answer []) ++ answer [(100, f1)] ::
        List.replicate 4 (answer [(100, f3)]))))
      (fun t => t.device = ⟨.success, .none⟩ && t.cfg.baud = 1000000 && t.line.sent.length = 10 &&
        t.resp.crcCalc = 0x0CA1 && t.respPlen = 0) ∧
    nextIs (exec (.configure .retried 1 1000000 250 3)
      (started (List.replicate 5 (answer []) ++ [answer [(100, f1)], answer [(100, f3)]])))
      (fun t => t.device = ⟨.noResponse, .none⟩ && t.cfg.baud = 57600 && t.policy.attempt = 5) := by
  decide +kernel

/-- R263: header-free bytes for ever. -/
theorem test_endless_line_is_stuck :
    (match exec (.xchg 1 1 [] 1000)
        { started [] with line := { (started []).line with babble := [0x41] } } with
      | .fault .exchangeNeverEnds => true
      | _ => false) = true := by decide +kernel

end Sys2Proof.Tests

/-! ## Witnesses: every statement with hypotheses is about something -/

namespace Sys2Proof.Tests

open Sys2Proof Sys2Proof.Machine

set_option Elab.async false

/-- The invariant as a check. -/
def invCheck (s : State) : Bool :=
  decide s.params.wf && decide (
  s.xstate = .idle ∧ s.rx.len ≤ s.cfg.cap ∧ s.tx.len ≤ s.params.txCap ∧
  s.params.capMin ≤ s.cfg.cap ∧ Memory.wf s.rx.mem ∧ Memory.wf s.tx.mem ∧
  (∀ c ∈ s.rx.mem, c.1 < s.rx.len) ∧ s.rx.vacated ≤ s.cfg.cap ∧
  (∀ c ∈ s.tx.mem, c.1 < s.params.txCap) ∧
  (s.flags.rstate = .partialFrame → 4 ≤ s.rx.len ∧ s.rx.mem.readBytes 0 4 = Config.hdr) ∧
  (s.flags.hdrSeen = false ↔ s.flags.rstate = .seeking) ∧
  (s.resp.outcome = .none ∨ s.resp.outcome.isExchange = true) ∧
  (s.resp.valid = false → s.resp.cleared) ∧ s.resp.params.length + 11 ≤ s.cfg.cap ∧
  s.req.payload.length + 10 ≤ s.params.txCap ∧
  (s.cfg.ready = false → s.rx.len = 0 ∧ s.flags.rstate = .seeking ∧ s.resp.valid = false))

theorem inv_of_check {s : State} (h : invCheck s = true) : Inv s := by
  obtain ⟨h1, h⟩ := Bool.and_eq_true_iff.mp h
  obtain ⟨h2, h3, h4, h5, h6, h7, h8, h9, h10, h11, h12, h13, h14, h15, h16, h17⟩ :=
    of_decide_eq_true h
  exact ⟨of_decide_eq_true h1, h2, h3, h4, h5, h6, h7, h8, h9, h10, h11, h12, h13, h14, h15, h16, h17⟩

/-- A block whose last exchange ended in IncompleteData: a partial frame at offset 0, as P4 (a) leaves. -/
def partway : State :=
  { started [] with
    rx := ⟨[(0, 0xFF), (1, 0xFF), (2, 0xFD), (4, 0x01), (5, 0x08), (7, 0x55), (9, 0x5D)], 10, 12, 3⟩
    flags := ⟨true, .partialFrame⟩
    resp := ⟨.incompleteData, false, 0, 0, 0, [], 0, 0⟩ }

theorem inv_started : Inv (started []) := inv_of_check (by decide)
theorem inv_partway : Inv partway := inv_of_check (by decide)

/-- A block with an exchange running, as no step leaves it: it refuses every command. -/
def busy : State := { started [] with xstate := .draining }

/-- A block with this plan of one reply, and the parameters' Register Address Map replaced. -/
def answered (m : Config.RegMap) (b : List Byte) : State :=
  { started [⟨true, [⟨1000, frameOf 1 0x55 (0 :: b)⟩]⟩] with
    params := { Config.defaultParams with regmap := m } }

/-! ### Step and words -/

theorem witness_EveryStepKeepsTheInvariant :
    Inv partway ∧ Inv { partway with port := [.command readWords] } ∧
    (nextIs (step { partway with port := [.command readWords] }) (fun t => t.port = [])) = true :=
  ⟨inv_partway, inv_of_check (by decide), by decide +kernel⟩

theorem witness_StepRunsTheNamedInstruction :
    decode [0x02, 0x34, 0x12] = .ok (.le16 0x1234) ∧ decode [0x02] = .error (.truncated 0x02) ∧
    State.reset.params.codes = Config.defaultCodes ∧ frameIs e3 (.wPing 1) = true ∧
    decodeWire State.reset.params.codes [0x41] = .error .noHeader ∧
    (Instr.ping .single 1 0 0).wellFormed = true ∧
    (∀ n, 65535 < n → (Instr.stuff (zeros n)).wellFormed = false) ∧ State.reset.port = [] :=
  ⟨rfl, rfl, rfl, by decide +kernel, rfl, rfl,
    fun n h => (test_list_check_refuses 0 0 0 0 n h).2.2.2.2.2.1, rfl⟩

theorem witness_IllegalCommandCodesAreRefused :
    (0x0D : Byte) ∉ ([0x01, 0x02, 0x03, 0x04, 0x05, 0x06, 0x07, 0x08, 0x09, 0x0A, 0x0B, 0x0C, 0x10, 0x11,
      0x20, 0x21] : List Byte) := by decide

theorem witness_round_trips :
    (Instr.xchgr 0xFF 0xFF [0xFF] 0xFF 0xFF).wellFormed = true ∧
    encode (.xchgr 0xFF 0xFF [0xFF] 0xFF 0xFF) =
      some [0x11, 0xFF, 0xFF, 0x01, 0x00, 0xFF, 0xFF, 0xFF] ∧
    decode [0x11, 0xFF, 0xFF, 0x01, 0x00, 0xFF, 0xFF, 0xFF] =
      .ok (.xchgr 0xFF 0xFF [0xFF] 0xFF 0xFF) ∧
    Config.defaultCodes.toList.Nodup ∧ (Instr.wRead 1 0x84 4).wellFormed = true ∧
    frameIs e1 (.wRead 1 0x84 4) = true :=
  ⟨rfl, rfl, rfl, by decide, rfl, by decide +kernel⟩

/-! ### Codec -/

theorem witness_idle_block :
    State.reset.xstate = .idle ∧ ([] : List Byte).length ≠ 2 ∧ ([0x01] : List Byte).length ≠ 4 ∧
    ([0xFF] : List Byte).length = ([0x80] : List Byte).length ∧ (Instr.s32 []).isPure = true := by
  decide

theorem witness_StuffedPayloadsHoldNoHeader :
    ((stuff [0xFF, 0xFF, 0xFD]).drop 0).take 3 = [0xFF, 0xFF, 0xFD] := by decide

theorem witness_HdrfindFindsTheLowestHeader :
    (Config.hdr.drop 0).take 4 = [0xFF, 0xFF, 0xFD, 0x00] ∧ Config.hdr.length ≤ State.reset.cfg.cap ∧
    (∀ k, (([0xFF, 0xFF, 0xFD] : List Byte).drop k).take 4 ≠ [0xFF, 0xFF, 0xFD, 0x00]) ∧
    State.reset.cfg.cap < (zeros 12).length := by
  refine ⟨rfl, by decide, fun k h => ?_, by decide⟩
  have := congrArg List.length h
  simp at this
  omega

/-- One buffer for each of DECODE's checks: a header and six bytes, a frame short by one byte, a length
field of 2, a frame, a corrupt frame. -/
theorem witness_DecodeMakesItsChecksInOrder :
    (∀ buf ∈ [f2.take 6, f2.take 14, [0xFF, 0xFF, 0xFD, 0x00, 0x01, 0x02, 0x00, 0xAA, 0xBB], f2, d6],
      (buf.drop 0).take 4 = [0xFF, 0xFF, 0xFD, 0x00]) ∧
    (f2.take 6).length < 0 + 7 ∧ (f2.take 14).length < 0 + 7 + 8 ∧ f2.length = 0 + 7 + 8 ∧
    crc16 ((f2.drop 0).take (5 + 8)) = joinU16 0x7C 0x9C ∧
    crc16 ((d6.drop 0).take (5 + 8)) ≠ joinU16 0x7C 0x9C := by decide +kernel

theorem witness_frames :
    payloadFits [] = true ∧ (frameOf 1 1 []).length ≤ State.reset.cfg.cap ∧
    3 < (frameOf 1 1 []).length ∧ 4 < (frameOf 1 1 []).length := by decide +kernel

theorem witness_SurroundingBytesDoNotMatter :
    f2.length = frameLenAt f2 0 ∧ hdrfind ([0x12] ++ f2 ++ [0xAA]) = some [(0x12 : Byte)].length ∧
    decodeFrameBytes f2 =
      .success ⟨0, 1, 0x55, [0x00, 0x5D, 0x0E, 0x00, 0x00], 0x9C7C, 0x9C7C⟩ ∧
    d6.length = frameLenAt d6 0 ∧ hdrfind ([] ++ d6 ++ f2) = some ([] : List Byte).length ∧
    decodeFrameBytes d6 =
      .checksumMismatch ⟨0, 1, 0x55, [0x00, 0x5C, 0x0E, 0x00, 0x00], 0x087F, 0x9C7C⟩ := by
  decide +kernel

/-- The first byte after the header, and the last byte of the frame. -/
theorem witness_FlippedBitsGiveChecksumMismatch :
    payloadFits [] = true ∧
    frameOf 1 1 [] = [0xFF, 0xFF, 0xFD, 0x00] ++ 0x01 :: [0x03, 0x00, 0x01, 0x19, 0x4E] ∧
    frameOf 1 1 [] = [0xFF, 0xFF, 0xFD, 0x00, 0x01, 0x03, 0x00, 0x01, 0x19] ++ 0x4E :: [] := by
  decide +kernel

theorem witness_ResynchronisationLosesNothing :
    decodeFrameBytes [0x41, 0x42, 0xFF, 0xFF, 0xFD] = .headerNotFound 2 ∧
    decodeFrameBytes ([0x12, 0x34] ++ f2.take 14) = .incomplete 2 := by decide +kernel

theorem witness_EncodeFillsTheSendBuffer :
    Memory.wf State.reset.tx.mem ∧ State.reset.xstate = .idle ∧
    10 + (stuff (zeros 246)).length ≤ State.reset.params.txCap ∧
    State.reset.params.txCap < 10 + (stuff (zeros 247)).length := by decide +kernel

theorem witness_WireInstructionsBuildTheirFrame :
    wireParts State.reset.params.codes (.wReboot 1) = some ⟨1, 0x08, []⟩ ∧
    (Instr.wReboot 1).isStatus = false ∧ frameFits State.reset.params.txCap [] = true ∧
    wireParts State.reset.params.codes (.wWrite 1 0 (zeros 245)) = some ⟨1, 0x03, zeros 247⟩ ∧
    frameFits State.reset.params.txCap (zeros 247) = false := by decide +kernel

theorem witness_StatusFramesJoinThePendingInput :
    payloadFits [0x00] = true ∧ payloadFits (0x00 :: zeros 65532) = false := by
  refine ⟨by decide, ?_⟩
  exact (congrArg (fun l => decide (l + 3 ≤ 65535))
    ((congrArg List.length (stuffFrom_zeros 65533)).trans (zeros_length 65533))).trans (by decide)

/-! ### Set-up and refusals -/

theorem witness_set_up :
    (started []).cfg.ready = true ∧ (started []).xstate = .idle ∧ State.reset.cfg.ready = false ∧
    State.reset.line.claimed = false ∧
    ({ State.reset with line := { Transport.quiet with claimed := true } } : State).line.claimed =
      true ∧
    busy.xstate ≠ .idle ∧ (Instr.xchg 1 1 [] 0).isStatus = false ∧
    (Instr.xchg 1 1 [] 0).isCommand = true ∧
    (nextIs (exec (.le16 0) State.reset) (fun t => t.port = [])) = true := by decide +kernel

theorem witness_BusyBlockRefusesEveryCommand :
    busy.xstate ≠ .idle ∧ (Instr.wReboot 1).isStatus = false ∧
    (wireParts busy.params.codes (.wReboot 1)).isSome = true ∧
    expand busy.params busy.cfg.waitUs (.ping .single 1 0 0) = some (.xchg 1 1 [] 1000) ∧
    delayByte busy.params 511 = none ∧ busy.params.baudCandidates ≠ [] ∧
    nextIs (exec (.configure .retried 1 57600 0 3) busy)
      (fun t => t.device.code = .refused && t.line.sent = []) := by decide +kernel

theorem witness_UnacceptedExchangesChangeNothing :
    busy.xstate ≠ .idle ∧ State.reset.cfg.ready = false ∧
    (started []).params.txCap < 10 + (stuff (zeros 247)).length ∧
    expand State.reset.params State.reset.cfg.waitUs (.ping .retried 1 0 0) = some (.xchgr 1 1 [] 0 0) ∧
    (Instr.xchgr 1 1 [] 0 0).request = some (1, 1, []) := by decide +kernel

/-! ### Exchanges -/

theorem witness_accepted_exchanges :
    Inv (started []) ∧ Inv partway ∧ (started []).takes [] ∧ (started []).takes (zeros 246) ∧
    (started []).line.goesQuiet ∧ partway.line.goesQuiet ∧ (started []).params = partway.params ∧
    (started []).cfg = partway.cfg ∧ (started []).line = partway.line ∧ (started []) ≠ partway := by
  refine ⟨inv_started, inv_partway, ?_, ?_, ?_, ?_, ?_, ?_, ?_, ?_⟩ <;> decide +kernel

/-- The first attempt is silent, the second is answered: XCHGR stops at the second of five. -/
theorem witness_RetryLoopStopsAtSuccessOrTheLimit :
    let s := started [answer [], answer [(100, f2)]]
    Inv s ∧ s.takes [] ∧ s.line.goesQuiet ∧
    nextIs (exec (.xchgr 1 1 [] 0 0) s) (fun t => t.policy = ⟨2, 5⟩ && t.resp.outcome = .success) ∧
    nextIs (exec (.xchg 1 1 [] (waitEff 1000 0)) s) (fun u =>
      u.resp.outcome = .noResponse && nextIs (exec (.xchg 1 1 [] (waitEff 1000 0)) u)
        (fun t => t.resp.outcome = .success)) := by
  refine ⟨inv_of_check ?_, ?_, ?_, ?_, ?_⟩ <;> decide +kernel

/-- Noise that ends in `FF`, then the frame, cut inside its header: the last noise byte is kept with it. -/
theorem witness_PiecesBehindNoise :
    let pre : List Byte := [0x12, 0xFF, 0xFF, 0x34, 0xFF]
    let s := started [⟨true, [⟨1000, (pre ++ f2).take 7⟩, ⟨1000, (pre ++ f2).drop 7⟩]⟩]
    Inv s ∧ s.takes [] ∧ s.line.silent ∧ frameOf 1 0x55 (0x00 :: [0x5D, 0x0E, 0x00, 0x00]) = f2 ∧
    hdrfind (pre ++ f2) = some pre.length ∧ f2.length ≤ s.cfg.cap ∧
    nextIs (exec (.xchg 1 1 [] 1000) s) (fun t => t.resp.outcome = .success && t.rxBytes = [0xFF] ++ f2) := by
  refine ⟨inv_of_check ?_, ?_, ?_, ?_, ?_, ?_, ?_⟩ <;> decide +kernel

/-- Two pieces, cut inside the header, each after exactly the wait. -/
theorem witness_PiecesOfAStatusFrameDecodeAsOne :
    let s := started [⟨true, [⟨1000, f7.take 2⟩, ⟨1000, f7.drop 2⟩]⟩]
    Inv s ∧ s.takes [] ∧ s.line.silent ∧
    ([Chunk.mk 1000 (f7.take 2), ⟨1000, f7.drop 2⟩].map (·.bytes)).flatten =
      frameOf 2 0x55 (0x00 :: [0x5D, 0x0E, 0x00, 0x00]) ∧
    (∀ c ∈ [Chunk.mk 1000 (f7.take 2), ⟨1000, f7.drop 2⟩], c.gap ≤ (1000 : Word40).toNat) ∧
    payloadFits (0x00 :: [0x5D, 0x0E, 0x00, 0x00]) = true ∧
    (frameOf 2 0x55 (0x00 :: [0x5D, 0x0E, 0x00, 0x00])).length ≤ s.cfg.cap := by
  refine ⟨inv_of_check ?_, ?_, ?_, ?_, ?_, ?_, ?_⟩ <;> decide +kernel

theorem witness_PendingFrameAnswersTheNextExchange :
    Inv (started []) ∧ (started []).takes [] ∧ (started []).line.silent ∧
    (started []).line.replies = [] ∧ payloadFits (0x80 :: []) = true ∧
    (frameOf 2 (started []).params.codes.status (0x80 :: [])).length ≤ (started []).cfg.cap := by
  refine ⟨inv_started, ?_, ?_, ?_, ?_, ?_⟩ <;> decide +kernel

/-- `f10` fills the buffer exactly. -/
theorem witness_OverflowPreemptsAValidFrame :
    let s := started [⟨true, [⟨1000, f10 ++ [0xAA]⟩]⟩]
    Inv s ∧ s.takes [] ∧ s.line.silent ∧ payloadFits (0x00 :: f10.drop 9 |>.take 22) = true ∧
    frameOf 1 0x55 ((0x00 :: f10.drop 9).take 22) = f10 ∧ f10.length = s.cfg.cap ∧
    1000 ≤ (1000 : Word40).toNat := by
  refine ⟨inv_of_check ?_, ?_, ?_, ?_, ?_, ?_, ?_⟩ <;> decide +kernel

/-- A header whose length field declares 33 bytes, one more than the buffer holds, and 33 bytes in two
pieces, the first of them `CAP` bytes long. -/
theorem witness_OverflowOfAnIncompleteFrame :
    let stream := [0xFF, 0xFF, 0xFD, 0x00, 0x01, 0x1A, 0x00] ++ zeros 26
    let s := started [⟨true, [⟨1000, stream.take 32⟩, ⟨1000, stream.drop 32⟩]⟩]
    Inv s ∧ s.takes [] ∧ s.line.silent ∧ stream.take 4 = [0xFF, 0xFF, 0xFD, 0x00] ∧
    s.cfg.cap < 7 + ((stream.getD 5 0).toNat + 256 * (stream.getD 6 0).toNat) ∧
    s.cfg.cap < stream.length ∧
    nextIs (exec (.xchg 1 1 [] 1000) s) (fun t => t.resp.outcome = .oversizedData) := by
  refine ⟨inv_of_check ?_, ?_, ?_, ?_, ?_, ?_, ?_⟩ <;> decide +kernel

/-- Each of the three ways nothing arrives. -/
theorem witness_SilenceIsNoResponse :
    Inv (started []) ∧ (started []).line.silent ∧ (started []).line.replies = [] ∧
    Inv (started [answer []]) ∧ (started [answer []]).line.silent ∧
    (started [answer []]).line.replies = [⟨true, []⟩] ∧
    Inv (started [⟨true, [⟨1001, f2⟩]⟩]) ∧ (started [⟨true, [⟨1001, f2⟩]⟩]).line.silent ∧
    (1000 : Word40).toNat < 1001 := by
  refine ⟨inv_started, ?_, ?_, inv_of_check ?_, ?_, ?_, inv_of_check ?_, ?_, ?_⟩ <;> decide +kernel

theorem witness_FailedSendIsNoResponse :
    Inv (started [⟨false, []⟩]) ∧ (started [⟨false, []⟩]).takes [] ∧
    (started [⟨false, []⟩]).line.replies = ⟨false, []⟩ :: [] := by
  refine ⟨inv_of_check ?_, ?_, ?_⟩ <;> decide +kernel

/-- Three bytes, four bytes, and all but the last byte of a frame. -/
theorem witness_PartialFrameThenSilence :
    ∀ k ∈ [3, 4, 14],
      Inv (started [⟨true, [⟨1000, f2.take k⟩]⟩]) ∧
      (started [⟨true, [⟨1000, f2.take k⟩]⟩]).line.silent ∧
      k < (frameOf 1 0x55 [0x00, 0x5D, 0x0E, 0x00, 0x00]).length ∧
      k ≤ (started []).cfg.cap := by
  intro k hk
  refine ⟨inv_of_check ?_, ?_, ?_, ?_⟩ <;> revert k <;> decide +kernel

theorem witness_MalformedFramesEndWithTheParameter :
    let s := started [⟨true,
      [⟨0, ([0xFF, 0xFF, 0xFD, 0x00, 0x01, 0x02, 0x00] ++ [0xAA, 0xBB] : List Byte)⟩]⟩]
    let s' := started [⟨true, [⟨0, frameOf 1 1 []⟩]⟩]
    Inv s ∧ s.takes [] ∧ s.line.silent ∧ (0x02 : Byte).toNat < 3 ∧ Inv s' ∧ s'.line.silent := by
  refine ⟨inv_of_check ?_, ?_, ?_, ?_, inv_of_check ?_, ?_⟩ <;> decide +kernel

theorem witness_CorruptFrameIsWrongChecksum :
    let s := started [⟨true, [⟨0, ([0xFF, 0xFF, 0xFD, 0x00] : List Byte) ++ ((0x01 : Byte) ^^^ (1#8 <<< 7)) ::
      [0x04, 0x00, 0x55, 0x00, 0xA1, 0x0C]⟩]⟩]
    Inv s ∧ s.takes [] ∧ s.line.silent ∧ payloadFits [0x00] = true ∧
    frameOf 1 0x55 [0x00] =
      [0xFF, 0xFF, 0xFD, 0x00] ++ 0x01 :: [0x04, 0x00, 0x55, 0x00, 0xA1, 0x0C] ∧
    (frameOf 1 0x55 [0x00]).length ≤ s.cfg.cap := by
  refine ⟨inv_of_check ?_, ?_, ?_, ?_, ?_, ?_⟩ <;> decide +kernel

theorem witness_DrainPassEndsOrKeepsAHeader :
    Memory.wf (started []).rx.mem ∧ (started []).params.malformed ≠ .none ∧
    (started []).resp.outcome = .none ∧
    (drainPass { started [] with line := { (started []).line with avail := f2.take 4 } }).flags =
      ⟨true, .partialFrame⟩ := by decide +kernel

theorem witness_TransportDeliversInOrder :
    let l : Transport := { Transport.quiet with avail := [0x41], future := [⟨5, [0x42]⟩], lag := [5] }
    let babbling := { Transport.quiet with babble := [0x43] }
    l.readOne.1 = some 0x41 ∧ Transport.quiet.readOne.1 = none ∧ l.readyNow.1 = true ∧
    l.replies = [] ∧ (started [answer [(1, [0x44])]]).line.replies = answer [(1, [0x44])] :: [] ∧
    (babbling.readyWithin 1).2.avail = [0x43] := by decide +kernel

theorem witness_HeaderFreeBabbleNeverEnds :
    let s := { started [] with line := { (started []).line with babble := [0xFF, 0xFF, 0x00] } }
    Inv s ∧ s.takes [] ∧ s.line.babble ≠ [] ∧ ∀ b ∈ s.line.babble, b ≠ 0xFD := by
  refine ⟨inv_of_check ?_, ?_, ?_, ?_⟩ <;> decide +kernel

/-! ### Device Operation Layer -/

theorem witness_CallsSendTheirFrameAndReport :
    Inv (started []) ∧ (started []).line.goesQuiet ∧ (started []).takes [0x40, 0x00, 0x01] ∧
    expand (started []).params (started []).cfg.waitUs (.setTorqueEnable .single 1 true 2 0) =
      some (.xchg 1 3 [0x40, 0x00, 0x01] 2000) ∧
    (Instr.xchg 1 3 [0x40, 0x00, 0x01] 2000).request = some (1, 3, [0x40, 0x00, 0x01]) ∧
    (Instr.setTorqueEnable .single 1 true 2 0).policy = some (.single, 2, 0) := by
  refine ⟨inv_started, ?_, ?_, ?_, ?_, ?_⟩ <;> decide +kernel

/-- The delay time and the code at the ends of their ranges. -/
theorem witness_CallsExpandToTheTableCommands :
    (510 : Nat) ≤ 510 ∧ (255 : Nat) ≤ 255 ∧
    (.temperature, .getTemperature .single 1 2 3) ∈
      ([(.temperature, .getTemperature .single 1 2 3)] : List (Config.Quantity × Instr)) ∧
    Config.Quantity.goalCurrent ∈ [Config.Quantity.goalVelocity, .goalCurrent] ∧
    255 < 256 ^ (widthLen Config.defaultParams.regmap.temperature.width).toNat ∧
    Config.defaultParams.mask1 &&& Config.defaultParams.mask2 = 0 ∧
    Config.defaultParams.mask1 &&& Config.defaultParams.mask3 = 0 ∧
    Config.defaultParams.mask2 &&& Config.defaultParams.mask3 = 0 := by decide

theorem witness_AnsweredReadYieldsParametersOrWrongParameter :
    Answered (answered Config.defaultRegMap [0x19]) 1 0x55 1 (readPayload 0x92 1) [0x19] 1000 ∧
    ([0x19] : List Byte).length = (1 : Word16).toNat ∧
    ([0x19] : List Byte).length ≠ (4 : Word16).toNat :=
  ⟨⟨inv_of_check (by decide +kernel), by decide +kernel, by decide +kernel, by decide +kernel,
    by decide +kernel, by decide +kernel, by decide +kernel⟩, by decide, by decide⟩

/-- The default map, with velocity and current at their other widths, and wide unsigned rows. -/
def otherMap : Config.RegMap :=
  { Config.defaultRegMap with
    presentVelocity := ⟨128, .two, true, 229, 1000⟩
    goalVelocity := ⟨104, .two, true, 229, 1000⟩
    presentCurrent := ⟨126, .four, true, 1, 1⟩
    goalCurrent := ⟨102, .four, true, 1, 1⟩
    temperature := ⟨146, .four, false, 1, 1⟩
    delayTime := ⟨9, .two, false, 2, 1⟩ }

/-- An answered read of a row, by its address and width in bytes. -/
abbrev answers (m : Config.RegMap) (addr len : Word16) (b : List Byte) : Prop :=
  Answered (answered m b) 1 0x55 1 (readPayload addr len) b 1000

theorem witness_AnsweredAccessorsYieldTheDecodedValue :
    answers Config.defaultRegMap 132 4 [0xFF, 0xFF, 0xFF, 0xFF] ∧
    answers Config.defaultRegMap 128 4 [0x00, 0x00, 0x00, 0x80] ∧
    answers otherMap 128 2 [0x00, 0x80] ∧ answers Config.defaultRegMap 126 2 [0x9C, 0xFF] ∧
    answers otherMap 126 4 [0x9C, 0xFF, 0xFF, 0xFF] := by
  refine ⟨?_, ?_, ?_, ?_, ?_⟩ <;>
    (refine ⟨inv_of_check ?_, ?_, ?_, ?_, ?_, ?_, ?_⟩ <;> decide +kernel)

/-- The goal rows, at both widths where they have two. -/
theorem witness_AnsweredGoalAccessors :
    answers Config.defaultRegMap 116 4 [0x00, 0x00, 0x00, 0x80] ∧
    answers Config.defaultRegMap 104 4 [0xFF, 0xFF, 0xFF, 0x7F] ∧
    answers otherMap 104 2 [0xFF, 0x7F] ∧ answers Config.defaultRegMap 102 2 [0x00, 0x80] ∧
    answers otherMap 102 4 [0x00, 0x00, 0x00, 0x80] := by
  refine ⟨?_, ?_, ?_, ?_, ?_⟩ <;>
    (refine ⟨inv_of_check ?_, ?_, ?_, ?_, ?_, ?_, ?_⟩ <;> decide +kernel)

/-- The unsigned rows, at one byte and at their other widths. -/
theorem witness_AnsweredUnsignedAccessors :
    answers Config.defaultRegMap 146 (widthLen .one) [0xFF] ∧
    answers otherMap 146 (widthLen .four) [0xFF, 0x00, 0x00, 0x01] ∧
    answers Config.defaultRegMap 11 (widthLen .one) [0x03] ∧
    answers Config.defaultRegMap 8 (widthLen .one) [0x01] ∧
    answers Config.defaultRegMap 9 (widthLen .one) [0xFF] ∧
    answers otherMap 9 (widthLen .two) [0xFF, 0x01] ∧
    answers Config.defaultRegMap 64 (widthLen .one) [0x00] ∧
    answers Config.defaultRegMap 10 (widthLen .one) [0x0D] := by
  refine ⟨?_, ?_, ?_, ?_, ?_, ?_, ?_, ?_⟩ <;>
    (refine ⟨inv_of_check ?_, ?_, ?_, ?_, ?_, ?_, ?_⟩ <;> decide +kernel)

theorem witness_delay_time_bounds :
    Config.defaultParams.regmap.wf ∧ 510 ≤ 510 ∧ 511 ≤ 511 ∧
    State.reset.params.delayOverflow = .refuse := by decide +kernel

theorem witness_Configure :
    let s := started (List.replicate 5 ⟨true, [⟨0, frameOf 1 0x55 [0x00]⟩]⟩)
    Inv (started []) ∧ (started []).cfg.ready = true ∧ 14 ≤ (started []).params.txCap ∧
    (started []).line.goesQuiet ∧ (started []).line.silent ∧ (started []).line.replies = [] ∧
    Inv s ∧ s.line.silent ∧ s.params.baudCandidates = 1000000 :: [57600] ∧
    delayByte s.params 250 = some 0x7D := by
  refine ⟨inv_started, ?_, ?_, ?_, ?_, ?_, inv_of_check ?_, ?_, ?_, ?_⟩ <;> decide +kernel

/-- The first candidate is silent, the second answers, and the torque write ends in StatusError: CONFIGURE
stops after one step, at the second candidate's rate. -/
theorem witness_ConfigureStopsAtAFailure :
    let s := started [answer [], answer [(1, f1)], answer [(1, f6)]]
    Inv s ∧ s.cfg.ready = true ∧ s.params.baudCandidates = [1000000] ++ 57600 :: [] ∧
    nextIs (exec (.setbaud 1000000) s) (fun v => nextIs (exec (.ping .single 1 0 0) v) (fun u =>
      u.device.code ≠ .success && nextIs (exec (.setbaud 57600) u) (fun v' =>
        nextIs (exec (.ping .single 1 0 0) v') (fun w => w.device.code = .success &&
          nextIs (exec (.setTorqueEnable .single 1 false 0 0) w)
            (fun x => x.device.code = .statusError))))) ∧
    nextIs (exec (.configure .single 1 9600 0 3) s)
      (fun t => t.device = ⟨.statusError, .none⟩ && t.line.baud = 57600) := by
  refine ⟨inv_of_check ?_, ?_, ?_, ?_, ?_⟩ <;> decide +kernel

/-- One candidate whose ping ends in StatusError, none at all, and a silent line. -/
theorem witness_ConfigureRestoresTheRateAfterAFailedSweep :
    let s := { started [answer [(1, f6)]] with
      params := { Config.defaultParams with baudCandidates := [9600] } }
    Inv s ∧ s.params.baudCandidates[0]? = some 9600 ∧ s.params.baudCandidates[1]? = none ∧
    nextIs (exec (.setbaud 9600) s) (fun v => nextIs (exec (.ping .single 1 0 0) v)
      (fun u => u.device.code = .statusError)) ∧
    nextIs (exec (.configure .single 1 1000000 0 3) s)
      (fun t => t.device = ⟨.statusError, .none⟩ && t.cfg = s.cfg && t.line.baud = 57600) ∧
    Inv { s with params := { s.params with baudCandidates := [] } } ∧
    (started []).line.silent ∧ (started []).line.replies = [] := by
  refine ⟨inv_of_check ?_, ?_, ?_, ?_, ?_, inv_of_check ?_, ?_, ?_⟩ <;> decide +kernel

end Sys2Proof.Tests
end

section
/-!
# What an instruction can do to the state

Every instruction's meaning is a chain of a few elementary effects, said once here. A property that the
effects keep is kept by every instruction: the statements about the invariant and about the
configuration registers are both derived from this.
-/

namespace Sys2Proof.Machine

open Config

/-- The elementary effects the instructions are made of, but for the writes of configuration registers:
an answer to the host, a frame in the send buffer (41_frame_encode R108), bytes on the line (10_state
R24), the retry registers (44_retry_policy R174), and an exchange that ends (43_session_exchange R148). -/
inductive Effect : State → State → Prop
  | answer (s : State) (r : Result) (d : DeviceReply) :
      Effect s { s with result := r, device := d }
  | encode (s : State) (id ins : Byte) (p : List Byte) (h : frameFits s.params.txCap p = true) :
      Effect s (encodeInto id ins p s)
  | deliver (s : State) (bytes : List Byte) : Effect s { s with line := s.line.deliver bytes }
  | policy (s : State) (r : PolicyRegs) : Effect s { s with policy := r }
  | exchange {s t : State} {id ins : Byte} {p : List Byte} {wait : Word40} (h : s.takes p)
      (ht : exchange id ins p wait s = some t) : Effect s t

/-- CONFIGURE has one effect more: SETBAUD's write of the rate (45_device_ops R188, R211). -/
inductive RateEffect : State → State → Prop
  | effect {s t : State} (h : Effect s t) : RateEffect s t
  | rate (s : State) (baud : Word32) :
      RateEffect s { s with cfg := { s.cfg with baud := baud }, line := s.line.setBaud baud }

/-- A chain of effects. -/
abbrev Effects : State → State → Prop := Relation.ReflTransGen Effect

/-- A chain of effects and writes of the rate. -/
abbrev RateEffects : State → State → Prop := Relation.ReflTransGen RateEffect

theorem Effects.rateEffects {s t : State} (h : Effects s t) : RateEffects s t :=
  h.lift id fun _ _ => .effect

theorem present_effects (code : Code) (data : List Byte) (s : State) :
    Effects s (present code data s) := .single (.answer s _ _)

theorem reply_effects (code : Code) (value : Value) (s : State) :
    Effects s (reply code value s) := .single (.answer s _ _)

theorem setAttempt_effects (v : Byte) (s : State) : Effects s (setAttempt v s) :=
  .single (.policy s _)

theorem startPolicy_effects (iters : Byte) (s : State) : Effects s (startPolicy iters s) :=
  .single (.policy s _)

theorem refuse_effects (s : State) : Effects s (refuse s) := present_effects _ _ s

/-! ## Commands -/

theorem ifIdle_effects {k : State → State} (hk : ∀ s, Effects s (k s)) (s : State) :
    Effects s (ifIdle k s) := by
  unfold ifIdle
  split
  · exact hk s
  · exact refuse_effects s

theorem presentOrRefuse_effects (data : Option (List Byte)) (s : State) :
    Effects s (presentOrRefuse data s) := by
  cases data with
  | none => exact refuse_effects s
  | some d => exact present_effects _ _ s

theorem encodeCommand_effects (id ins : Byte) (p : List Byte) (s : State) :
    Effects s (encodeCommand id ins p s) := by
  unfold encodeCommand
  split
  · next h => exact .trans (.single (.encode s id ins p h)) (present_effects _ _ _)
  · exact refuse_effects s

theorem deliverStatus_effects (id err : Byte) (params : List Byte) (s : State) :
    Effects s (deliverStatus id err params s) := by
  unfold deliverStatus
  split
  · exact .single (.deliver s _)
  · exact refuse_effects s

theorem accepts_iff (p : List Byte) (s : State) :
    accepts p s = true ↔ s.xstate = .idle ∧ s.takes p := by
  simp [accepts]

/-- An exchange that ends leaves the block ready for the same request. -/
theorem exchange_takes {id ins : Byte} {p q : List Byte} {wait : Word40} {s t : State}
    (h : exchange id ins p wait s = some t) (hs : s.takes q) : t.takes q := by
  rw [(exchange_settles h).eq]
  exact hs

theorem runXchg_effects {id ins : Byte} {p : List Byte} {wait : Word40} {s t : State}
    (h : runXchg id ins p wait s = some t) : Effects s t := by
  rcases runXchg_cases id ins p wait s with ⟨ha, e⟩ | ⟨-, e⟩ <;> rw [e] at h
  · obtain ⟨u, hu, rfl⟩ := Option.map_eq_some_iff.mp h
    have hx : Effects s u := (setAttempt_effects 1 s).tail (.exchange ((accepts_iff p s).mp ha).2 hu)
    exact hx.trans (present_effects _ _ u)
  · cases h
    exact refuse_effects s

theorem attempts_effects {id ins : Byte} {p : List Byte} {wait : Word40} {n : Nat} {s t : State}
    (h : attempts id ins p wait n s = some t) (hs : s.takes p) : Effects s t := by
  refine (attempts_induct (P := fun u => Effects s u ∧ u.takes p) ?_ h ⟨.refl, hs⟩).1
  rintro u v ⟨hu, htakes⟩ hv
  have hset := hu.trans (setAttempt_effects (u.policy.attempt + 1) u)
  exact ⟨hset.tail (.exchange htakes hv), exchange_takes hv htakes⟩

theorem runXchgr_effects {id ins : Byte} {p : List Byte} {mult iters : Byte} {s t : State}
    (h : runXchgr id ins p mult iters s = some t) : Effects s t := by
  rcases runXchgr_cases id ins p mult iters s with ⟨ha, e⟩ | ⟨-, e⟩ <;> rw [e] at h
  · obtain ⟨u, hu, rfl⟩ := Option.map_eq_some_iff.mp h
    have hx : Effects s u := (startPolicy_effects iters s).trans
      (attempts_effects hu ((accepts_iff p s).mp ha).2)
    exact hx.trans (present_effects _ _ u)
  · cases h
    exact refuse_effects s

/-! ## Calls of the Device Operation Layer -/

theorem issueCall_effects {f : Form} {id code m n : Byte} {p : List Byte} {s t : State}
    (h : issueCall f id code p m n s = some t) : Effects s t := by
  cases f with
  | retried => exact runXchgr_effects h
  | single => exact runXchg_effects h

theorem plainCall_effects {f : Form} {id code m n : Byte} {p : List Byte} {s t : State}
    (h : plainCall f id code p m n s = some t) : Effects s t := by
  obtain ⟨u, hu, rfl⟩ := plainCall_some h
  exact (issueCall_effects hu).tail (.answer u _ _)

theorem readCall_effects {f : Form} {id m n : Byte} {addr len : Word16} {value : List Byte → Value}
    {s t : State} (h : readCall f id addr len value m n s = some t) : Effects s t := by
  obtain ⟨u, hu, rfl⟩ := readCall_some h
  refine (issueCall_effects hu).trans ?_
  rcases finishRead_cases len value u with ⟨-, e⟩ | ⟨-, -, e⟩ | ⟨-, -, e⟩ <;> rw [e] <;>
    exact .single (.answer u _ _)

theorem setCall_effects {f : Form} {q : Quantity} {id m n : Byte} {v : Value} {s t : State}
    (h : setCall f q id v m n s = some t) : Effects s t := by
  rcases setCall_cases f q id v m n s with ⟨data, -, e⟩ | ⟨-, e⟩ <;> rw [e] at h
  · exact plainCall_effects h
  · cases h
    exact .single (.answer s _ _)

theorem setDelayCall_effects {f : Form} {id m n : Byte} {us : Nat} {s t : State}
    (h : setDelayCall f id us m n s = some t) : Effects s t := by
  unfold setDelayCall at h
  split at h
  · exact plainCall_effects h
  · cases h
    exact reply_effects _ _ s

theorem execAccess_effects {a : Accessor} {s t : State} (h : execAccess a s = .next t) :
    Effects s t := by
  have h := orNeverEnds_next h
  cases a with
  | get f q id m n => exact readCall_effects h
  | set f q id v m n => exact setCall_effects h

/-! ## CONFIGURE (45_device_ops R211) -/

theorem setbaudCommand_effects (baud : Word32) (s : State) :
    RateEffects s (setbaudCommand baud s) := by
  unfold setbaudCommand
  split
  · exact .trans (.single (.rate s baud)) (present_effects _ _ _).rateEffects
  · exact (refuse_effects s).rateEffects

theorem sweep_effects {f : Form} {id : Byte} {cs : List Word32} {s t : State}
    (h : sweep f id cs s = some t) : RateEffects s t := by
  induction cs generalizing s with
  | nil => cases h; exact .refl
  | cons c cs ih =>
    cases hp : pingCall f id 0 0 (setbaudCommand c s) with
    | none => simp only [sweep, hp, reduceCtorEq] at h
    | some u =>
      have hu := (setbaudCommand_effects c s).trans (plainCall_effects hp).rateEffects
      rw [sweep_cons hp] at h
      split at h
      · cases h; exact hu
      · exact hu.trans (ih h)

/-- A step of CONFIGURE and what follows it, each a chain of effects, are one. -/
theorem thenStep_effects {s t : State} {o : Option State} {k : State → Option State}
    (ho : ∀ u, o = some u → RateEffects s u) (hk : ∀ u, k u = some t → RateEffects u t)
    (h : thenStep o k = some t) : RateEffects s t := by
  cases o with
  | none => cases h
  | some u =>
    have hu := ho u rfl
    rcases thenStep_cases u k with ⟨-, e⟩ | ⟨-, e⟩ <;> rw [e] at h
    · exact hu.trans (hk u h)
    · cases h; exact hu

theorem configureSteps_effects {f : Form} {id opmode : Byte} {baud : Word32} {us : Nat} {s t : State}
    (h : configureSteps f id baud us opmode s = some t) : RateEffects s t := by
  refine thenStep_effects (fun _ h => (plainCall_effects h).rateEffects) (fun u h => ?_) h
  refine thenStep_effects (fun _ h => (plainCall_effects h).rateEffects) (fun v h => ?_) h
  refine thenStep_effects (fun _ h => ?_) (fun w h => (plainCall_effects h).rateEffects) h
  exact (setbaudCommand_effects baud v).trans (setDelayCall_effects h).rateEffects

theorem configureCall_effects {f : Form} {id opmode : Byte} {baud : Word32} {us : Nat} {s t : State}
    (h : configureCall f id baud us opmode s = some t) : RateEffects s t := by
  unfold configureCall at h
  split at h
  · cases h
  · next u hu =>
    have hsweep := (reply_effects _ _ s).rateEffects.trans (sweep_effects hu)
    split at h
    · exact hsweep.trans (configureSteps_effects h)
    · cases h
      exact hsweep.trans (setbaudCommand_effects _ u)

/-! ## All instructions -/

/-- INIT, SETBAUD and CONFIGURE: the instructions that write configuration registers. -/
def setsUp : Instr → Bool
  | .init .. => true
  | .setbaud _ => true
  | .configure .. => true
  | _ => false

/-- Every instruction but INIT, SETBAUD and CONFIGURE is a chain of elementary effects. -/
theorem exec_effects {i : Instr} {s t : State} (hi : setsUp i = false) (h : exec i s = .next t) :
    Effects s t := by
  cases i with
  | init | setbaud | configure => cases hi
  | crc16 | le16 | le32 | stuff | destuff =>
    cases h; exact ifIdle_effects (present_effects _ _) s
  | u16 | u32 | s16 | s32 =>
    cases h; exact ifIdle_effects (presentOrRefuse_effects _) s
  | hdrfind buf | decode buf =>
    cases h
    refine ifIdle_effects (fun u => ?_) s
    split
    · exact present_effects _ _ u
    · exact refuse_effects u
  | encode | wPing | wRead | wWrite | wRegWrite | wAction | wFactoryReset | wReboot =>
    cases h; exact ifIdle_effects (encodeCommand_effects _ _ _) s
  | wStatus => cases h; exact deliverStatus_effects _ _ _ s
  | xchg => exact runXchg_effects (orNeverEnds_next h)
  | xchgr => exact runXchgr_effects (orNeverEnds_next h)
  | ping | write | regwrite | action | freset | reboot | setTorqueEnable | setOperatingMode
  | setBaudRate => exact plainCall_effects (orNeverEnds_next h)
  | read | getTorqueEnable | getPosition | getVelocity | getCurrent | getTemperature | getDelayTime
  | getDriveMode | getOperatingMode | getBaudRate => exact readCall_effects (orNeverEnds_next h)
  | setDelayTime => exact setDelayCall_effects (orNeverEnds_next h)

/-- SETBAUD and CONFIGURE are chains of elementary effects and of writes of the rate. -/
theorem exec_rateEffects {i : Instr} {s t : State}
    (hi : ∀ cap w b x y z, i ≠ .init cap w b x y z) (h : exec i s = .next t) : RateEffects s t := by
  cases hset : setsUp i with
  | false => exact (exec_effects hset h).rateEffects
  | true =>
    cases i with
    | init => exact absurd rfl (hi _ _ _ _ _ _)
    | setbaud baud => cases h; exact setbaudCommand_effects baud s
    | configure => exact configureCall_effects (orNeverEnds_next h)
    | _ => cases hset

end Sys2Proof.Machine
end

section
/-!
# The configuration registers (10_state R20)
-/

namespace Sys2Proof.Machine

/-- The parameters, the host's queue and the configuration registers but for `CFG_BAUD` are the same. -/
structure KeepsSession (s t : State) : Prop where
  params : t.params = s.params
  port : t.port = s.port
  cfg : t.cfg = { s.cfg with baud := t.cfg.baud }

theorem KeepsSession.refl (s : State) : KeepsSession s s := ⟨rfl, rfl, rfl⟩

theorem KeepsSession.trans {a b c : State} (h : KeepsSession a b) (h' : KeepsSession b c) :
    KeepsSession a c := by
  refine ⟨h'.params.trans h.params, h'.port.trans h.port, ?_⟩
  rw [h'.cfg, h.cfg]

theorem exchange_cfg {id ins : Byte} {p : List Byte} {wait : Word40} {s t : State}
    (h : exchange id ins p wait s = some t) : t.cfg = s.cfg := by
  rw [(exchange_settles h).eq]
  rfl

theorem Effect.keepsCfg {s t : State} (h : Effect s t) : t.cfg = s.cfg := by
  cases h with
  | exchange _ ht => exact exchange_cfg ht
  | _ => rfl

theorem Effect.keepsSession {s t : State} (h : Effect s t) : KeepsSession s t := by
  cases h with
  | exchange _ ht =>
    refine ⟨?_, ?_, ?_⟩ <;> rw [(exchange_settles ht).eq] <;> rfl
  | _ => exact ⟨rfl, rfl, rfl⟩

theorem RateEffect.keepsSession {s t : State} (h : RateEffect s t) : KeepsSession s t := by
  cases h with
  | effect h => exact h.keepsSession
  | rate => exact ⟨rfl, rfl, rfl⟩

theorem Effects.keepsCfg {s t : State} (h : Effects s t) : t.cfg = s.cfg := by
  induction h with
  | refl => rfl
  | tail _ h ih => exact h.keepsCfg.trans ih

theorem RateEffects.keepsSession {s t : State} (h : RateEffects s t) : KeepsSession s t := by
  induction h with
  | refl => exact .refl s
  | tail _ h ih => exact ih.trans h.keepsSession

/-- Everything INIT can do (45_device_ops R187): be refused, fail, or construct the session. -/
theorem initCommand_cases (cap : Word16) (waitUs baud : Word32) (bits stop parity : Byte)
    (s : State) :
    (∃ c, initCommand cap waitUs baud bits stop parity s = present c [] s) ∨
    (s.cfg.ready = false ∧ initCommand cap waitUs baud bits stop parity s =
      present .success []
        (clearTxLen (clearRx (configureSession cap waitUs baud bits stop parity s)))) := by
  unfold initCommand
  split
  · exact .inl ⟨_, rfl⟩
  · next hr =>
    split
    · exact .inl ⟨_, rfl⟩
    · exact .inr ⟨by simpa using hr, rfl⟩

/-- The same for the instruction: a Busy block refuses it. -/
theorem execInit_cases {cap : Word16} {waitUs baud : Word32} {bits stop parity : Byte}
    {s t : State} (h : execInit cap waitUs baud bits stop parity s = .next t) :
    (∃ c, t = present c [] s) ∨
    (s.cfg.ready = false ∧ t = present .success []
      (clearTxLen (clearRx (configureSession cap waitUs baud bits stop parity s)))) := by
  cases h
  unfold ifIdle
  split
  · exact initCommand_cases cap waitUs baud bits stop parity s
  · exact .inl ⟨_, rfl⟩

theorem execInit_params_port {cap : Word16} {waitUs baud : Word32} {bits stop parity : Byte}
    {s t : State} (h : execInit cap waitUs baud bits stop parity s = .next t) :
    t.params = s.params ∧ t.port = s.port := by
  rcases execInit_cases h with ⟨c, rfl⟩ | ⟨-, rfl⟩ <;> exact ⟨rfl, rfl⟩

theorem exec_params_port {i : Instr} {s t : State} (h : exec i s = .next t) :
    t.params = s.params ∧ t.port = s.port := by
  by_cases hi : ∀ cap w b x y z, i ≠ .init cap w b x y z
  · have hk := (exec_rateEffects hi h).keepsSession
    exact ⟨hk.params, hk.port⟩
  · push Not at hi
    obtain ⟨cap, w, b, x, y, z, rfl⟩ := hi
    exact execInit_params_port h

theorem setsUp_eq_false {i : Instr} (hinit : ∀ cap w b x y z, i ≠ .init cap w b x y z)
    (hrate : ∀ b, i ≠ .setbaud b) (hconf : ∀ f id b d o, i ≠ .configure f id b d o) :
    setsUp i = false := by
  cases i with
  | init => exact absurd rfl (hinit _ _ _ _ _ _)
  | setbaud => exact absurd rfl (hrate _)
  | configure => exact absurd rfl (hconf _ _ _ _ _)
  | _ => rfl

end Sys2Proof.Machine

open Sys2Proof.Machine in
/-- Settles O32: every instruction but INIT is a chain of effects that keep all but `CFG_BAUD`, and only
SETBAUD and CONFIGURE have the effect that writes it. -/
theorem onlySetUpWritesTheConfiguration : Obligations.OnlySetUpWritesTheConfiguration := by
  intro i s t h
  obtain ⟨hparams, hport⟩ := exec_params_port h
  refine ⟨hparams, hport, fun hinit => ?_⟩
  have hcfg := (exec_rateEffects hinit h).keepsSession.cfg
  refine ⟨by rw [hcfg], by rw [hcfg], by rw [hcfg], by rw [hcfg], fun hrate hconf => ?_⟩
  rw [(exec_effects (setsUp_eq_false hinit hrate hconf) h).keepsCfg]
end

section
/-!
# The invariant: what it depends on, and the sizes and headers it speaks of
-/

namespace Sys2Proof

/-! ## Frame and content lengths -/

theorem destuffFrom_length_le (b3 b2 b1 : Byte) (r : List Byte) :
    (destuffFrom b3 b2 b1 r).length ≤ r.length := by
  induction r generalizing b3 b2 b1 with
  | nil => simp [destuffFrom]
  | cons b bs ih =>
    unfold destuffFrom
    split
    · exact (ih ..).trans (Nat.le_succ _)
    · exact Nat.succ_le_succ (ih ..)

theorem destuff_length_le (r : List Byte) : (destuff r).length ≤ r.length :=
  destuffFrom_length_le 0 0 0 r

theorem stuffFrom_length_ge (b2 b1 : Byte) (p : List Byte) :
    p.length ≤ (stuffFrom b2 b1 p).length := by
  induction p generalizing b2 b1 with
  | nil => simp
  | cons b bs ih =>
    have := ih b1 b
    unfold stuffFrom
    split <;> simp only [List.length_cons] <;> omega

theorem stuff_length_ge (p : List Byte) : p.length ≤ (stuff p).length := stuffFrom_length_ge 0 0 p

@[simp] theorem le16_length (v : Word16) : (le16 v).length = 2 := rfl

@[simp] theorem frameHead_length (id ins : Byte) (c : List Byte) :
    (frameHead id ins c).length = c.length + 8 := by
  simp only [frameHead, natLe16, Config.hdr, List.length_append, List.length_cons, List.length_nil,
    le16_length]
  omega

@[simp] theorem frameOf_length (id ins : Byte) (p : List Byte) :
    (frameOf id ins p).length = (stuff p).length + 10 := by
  simp [frameOf]

theorem frameFits_iff (cap : Nat) (p : List Byte) :
    frameFits cap p = true ↔ 10 + (stuff p).length ≤ cap ∧ (stuff p).length + 3 ≤ 0xFFFF := by
  simp [frameFits]

/-! ## Where HDRFIND finds a header (R120) -/

theorem hdrfindFrom_some {h k : Nat} {buf : List Byte} (hf : hdrfindFrom k buf = some h) :
    k ≤ h ∧ (buf.drop (h - k)).take 4 = Config.hdr := by
  induction buf generalizing k with
  | nil => cases hf
  | cons b bs ih =>
    unfold hdrfindFrom at hf
    split at hf
    · next hb =>
      cases hf
      simpa using hb
    · obtain ⟨hle, hd⟩ := ih hf
      refine ⟨by omega, ?_⟩
      rwa [show h - k = h - (k + 1) + 1 by omega, List.drop_succ_cons]

theorem hdrfind_some {h : Nat} {buf : List Byte} (hf : hdrfind buf = some h) :
    (buf.drop h).take 4 = Config.hdr := (hdrfindFrom_some hf).2

theorem hdrfind_some_length {h : Nat} {buf : List Byte} (hf : hdrfind buf = some h) :
    h + 4 ≤ buf.length := by
  have := congrArg List.length (hdrfind_some hf)
  simp only [List.length_take, List.length_drop, Config.hdr, List.length_cons,
    List.length_nil] at this
  omega

theorem hdrfind_of_header {buf : List Byte} (h : buf.take 4 = Config.hdr) :
    hdrfind buf = some 0 := by
  cases buf with
  | nil => cases h
  | cons b bs => exact if_pos h

/-! ## What DECODE can answer (R126) -/

/-- The frame at `h` is there with all its bytes, and is long enough for one. -/
structure WholeFrame (buf : List Byte) (h : Nat) : Prop where
  present : h + frameLenAt buf h ≤ buf.length
  long : 10 ≤ frameLenAt buf h

/-- Every answer of DECODE at a header: cut short, malformed, or the fields of a whole frame. -/
theorem decodeAt_cases (buf : List Byte) (h : Nat) :
    decodeAt buf h = .incomplete h ∨ decodeAt buf h = .malformed h ∨
    (WholeFrame buf h ∧ (decodeAt buf h = .checksumMismatch (fieldsAt buf h) ∨
      decodeAt buf h = .success (fieldsAt buf h))) := by
  unfold decodeAt
  split
  · exact .inl rfl
  · split
    · exact .inl rfl
    · split
      · exact .inr (.inl rfl)
      · refine .inr (.inr ⟨⟨by omega, by omega⟩, ?_⟩)
        split
        · exact .inl rfl
        · exact .inr rfl

/-- The parameters of a whole frame leave room for the eleven other bytes of a status frame. -/
theorem WholeFrame.params_length {buf : List Byte} {h : Nat} (hw : WholeFrame buf h) :
    (paramsOf (fieldsAt buf h).content).length + 11 ≤ max 11 buf.length := by
  have hpresent := hw.present
  have hlong := hw.long
  have hd := destuff_length_le (slice buf (h + 8) (h + frameLenAt buf h - 2))
  have hs : (slice buf (h + 8) (h + frameLenAt buf h - 2)).length ≤ frameLenAt buf h - 10 := by
    simp only [slice, List.length_take]
    omega
  simp only [paramsOf, fieldsAt, List.length_drop]
  omega

end Sys2Proof

namespace Sys2Proof.Machine

theorem State.rxBytes_length (s : State) : s.rxBytes.length = s.rx.len :=
  Memory.readBytes_length _ _ _

theorem Memory.readBytes_take (m : Memory) (a n k : Nat) (h : k ≤ n) :
    (m.readBytes a n).take k = m.readBytes a k := by
  obtain ⟨j, rfl⟩ := Nat.exists_eq_add_of_le h
  rw [Memory.readBytes_append, List.take_left' (Memory.readBytes_length _ _ _)]

theorem Memory.readBytes_drop (m : Memory) (a n k : Nat) (h : k ≤ n) :
    (m.readBytes a n).drop k = m.readBytes (a + k) (n - k) := by
  obtain ⟨j, rfl⟩ := Nat.exists_eq_add_of_le h
  rw [Memory.readBytes_append, List.drop_left' (Memory.readBytes_length _ _ _),
    Nat.add_sub_cancel_left]

/-! ## Compaction (R145) -/

theorem compact_eq (k : Nat) (s : State) : compact k s = { s with rx := (compact k s).rx } := by
  unfold compact
  split <;> rfl

/-- With nothing beyond `RXLEN`, a compaction builds the buffer anew from the bytes it keeps. -/
theorem compact_rx {k : Nat} {s : State} (hk : k ≠ 0) (hin : ∀ c ∈ s.rx.mem, c.1 < s.rx.len) :
    (compact k s).rx = ⟨Memory.writeBytes [] 0 (s.rx.mem.readBytes k (s.rx.len - k)),
      s.rx.len - k, s.cfg.cap, s.rx.gen + 1⟩ := by
  simp only [compact, if_neg hk, Memory.zeroTo_eq_nil hin]

/-- What stands in the buffer after `COMPACT(k)`: the bytes from `k` on. -/
theorem compact_rxBytes {k : Nat} {s : State} (hin : ∀ c ∈ s.rx.mem, c.1 < s.rx.len)
    (hk : k ≤ s.rx.len) : (compact k s).rxBytes = s.rxBytes.drop k := by
  by_cases h0 : k = 0
  · subst h0; rfl
  · have hback := Memory.readBytes_writeBytes Memory.wf_nil 0 (s.rx.mem.readBytes k (s.rx.len - k))
    rw [Memory.readBytes_length] at hback
    rw [State.rxBytes, compact_rx h0 hin, hback, State.rxBytes, Memory.readBytes_drop _ _ _ _ hk,
      Nat.zero_add]

/-! ## What the invariant depends on -/

/-- The invariant does not look at the retry registers, the channel, the host's side, and of the
configuration registers only at `CFG_CAP` and `CFG_READY`. -/
theorem Inv.congr {s t : State} (h : Inv s) (hcap : t.cfg.cap = s.cfg.cap)
    (hready : t.cfg.ready = s.cfg.ready)
    (e : t = { s with cfg := t.cfg, policy := t.policy, line := t.line, port := t.port,
                      result := t.result, device := t.device }) : Inv t := by
  rw [e]
  exact { h with
    rxLen := hcap ▸ h.rxLen
    capMin := hcap ▸ h.capMin
    vacated := hcap ▸ h.vacated
    respFits := hcap ▸ h.respFits
    notReady := hready ▸ h.notReady }

end Sys2Proof.Machine
end

section
/-!
# Every step keeps the invariant

During an exchange the block is not Idle, and that is the only clause of the invariant that fails:
`Midway` is the invariant but for it, kept from the start of an exchange (43_session_exchange R148) through
every pass of the drain loop.
-/

namespace Sys2Proof.Machine

/-- The invariant of an exchange that runs: all of `Inv` but `XSTATE = Idle`, on an initialised block. -/
structure Midway (s : State) : Prop where
  inv : Inv { s with xstate := .idle }
  ready : s.cfg.ready = true

theorem Midway.inv_of_idle {s : State} (h : Midway s) (hidle : s.xstate = .idle) : Inv s :=
  { h.inv with idle := hidle }

theorem Midway.rxIn {s : State} (h : Midway s) : ∀ c ∈ s.rx.mem, c.1 < s.rx.len := h.inv.rxIn

theorem Midway.rxLen {s : State} (h : Midway s) : s.rx.len ≤ s.cfg.cap := h.inv.rxLen

theorem Midway.malformed {s : State} (h : Midway s) : s.params.malformed.isExchange = true := by
  obtain ⟨-, -, hmalformed, -⟩ := h.inv.params
  exact hmalformed

/-- `CAP` holds the shortest status frame (10_state R20, D8). -/
theorem Inv.cap_ge {s : State} (h : Inv s) : 11 ≤ s.cfg.cap := h.params.1.trans h.capMin

theorem Midway.cap_ge {s : State} (h : Midway s) : 11 ≤ s.cfg.cap := h.inv.cap_ge

/-- The channel and `XSTATE` are not looked at. -/
theorem Midway.congr {s t : State} (h : Midway s)
    (e : t = { s with xstate := t.xstate, line := t.line }) : Midway t := by
  rw [e]
  exact ⟨{ h.inv with }, h.ready⟩

/-! ## Starting (R148 steps 2 to 5) -/

/-- A frame that fits may stand in the send buffer. -/
theorem Inv.encodeInto {s : State} (h : Inv s) (id ins : Byte) {p : List Byte}
    (hp : frameFits s.params.txCap p = true) : Inv (encodeInto id ins p s) := by
  have hfits := (frameFits_iff _ _).mp hp
  have hlen : (frameOf id ins p).length ≤ s.params.txCap := by
    rw [frameOf_length]
    omega
  exact { h with
    txLen := hlen
    txWf := Memory.writeBytes_wf h.txWf _ _
    txIn := fun c hc => by
      rcases Memory.mem_writeBytes hc with hc | ⟨-, hc⟩
      · exact h.txIn c hc
      · show c.1 < s.params.txCap
        omega }

/-- The receive buffer is empty after its clearing (R148 step 2). -/
theorem clearRx_mem_nil {s : State} (h : ∀ c ∈ s.rx.mem, c.1 < s.cfg.cap) :
    (clearRx s).rx.mem = [] := Memory.zeroTo_eq_nil h

/-- The cleared and latched state before ENCODE meets the invariant. -/
theorem Inv.cleared_latched {s : State} (h : Inv s) (id ins : Byte) {p : List Byte} (wait : Word40)
    (hp : p.length + 10 ≤ s.params.txCap) :
    Inv (latchRequest id ins p wait (clearFlags (clearRx (clearResp s)))) := by
  have hmem : (clearRx (clearResp s)).rx.mem = [] :=
    clearRx_mem_nil fun c hc => Nat.lt_of_lt_of_le (h.rxIn c hc) h.rxLen
  exact { h with
    rxLen := Nat.zero_le _
    rxWf := Memory.zeroTo_wf h.rxWf _
    rxIn := fun c hc => by
      rw [latchRequest_rx, clearFlags_rx, hmem] at hc
      cases hc
    vacated := Nat.zero_le _
    partialHdr := nofun
    seen := by simp
    outcome := .inl rfl
    cleared := fun _ => ⟨rfl, rfl, rfl, rfl, rfl, rfl, rfl⟩
    respFits := by simpa using h.cap_ge
    reqFits := hp
    notReady := fun _ => ⟨rfl, rfl, rfl⟩ }

theorem Inv.beginExchange {s : State} (h : Inv s) (id ins : Byte) {p : List Byte} (wait : Word40)
    (hp : s.takes p) : Midway (beginExchange id ins p wait s) := by
  have hfits := (frameFits_iff _ _).mp hp.2
  have hlen := stuff_length_ge p
  have hinv := (h.cleared_latched id ins wait (p := p) (by omega)).encodeInto id ins (p := p) hp.2
  exact ⟨{ hinv with idle := rfl }, hp.1⟩

theorem Inv.sentState {s : State} (h : Inv s) (id ins : Byte) {p : List Byte} (wait : Word40)
    (hp : s.takes p) : Midway (sentState id ins p wait s) :=
  (h.beginExchange id ins wait hp).congr rfl

/-! ## One pass (R148 steps 7 to 7d) -/

theorem Midway.appends {s t : State} (h : Midway s) (hr : Receives s t) (ha : Appends s t) :
    Midway t := by
  have hi := h.inv
  have hhdr : s.flags.rstate = .partialFrame →
      4 ≤ t.rx.len ∧ t.rx.mem.readBytes 0 4 = Config.hdr := fun hf => by
    obtain ⟨hlen, hhdr⟩ := hi.partialHdr hf
    refine ⟨hlen.trans ha.grows, Eq.trans (Memory.readBytes_congr fun i _ hi => ?_) hhdr⟩
    exact ha.keeps i (Nat.lt_of_lt_of_le hi (by simpa using hlen))
  rw [hr.eq]
  exact ⟨{ hi with
    rxLen := ha.fits hi.rxLen
    rxWf := ha.wf hi.rxWf
    rxIn := ha.inside hi.rxIn
    vacated := ha.vacated ▸ hi.vacated
    partialHdr := hhdr
    notReady := fun hn => absurd hn (by simp [h.ready]) }, h.ready⟩

theorem passInput_appends (s : State) : Appends (enterDraining s) (passInput s) := by
  have ha := refill_appends (enterDraining s)
  unfold passInput
  rcases overflowTest_cases (refill (enterDraining s)) with ⟨-, e⟩ | ⟨-, e⟩ <;> rw [e]
  · exact Appends.trans (by rw [(refill_receives (enterDraining s)).eq]) ha (.of_rx rfl)
  · exact ha

theorem Midway.passInput {s : State} (h : Midway s) : Midway (passInput s) :=
  (h.congr (t := enterDraining s) rfl).appends (passInput_receives s) (passInput_appends s)

theorem Midway.raiseOutcome {s : State} (h : Midway s) {o : Code} (ho : o.isExchange = true) :
    Midway (raiseOutcome o s) :=
  ⟨{ h.inv with outcome := .inr ho }, h.ready⟩

/-- The response registers take the fields of a frame that fits the buffer. -/
theorem Midway.latch {s : State} (h : Midway s) {f : Fields}
    (hf : (paramsOf f.content).length + 11 ≤ s.cfg.cap) : Midway (latch f s) :=
  ⟨{ h.inv with
    cleared := nofun
    respFits := hf
    notReady := fun hn => absurd hn (by simp [h.ready]) }, h.ready⟩

theorem classify_isExchange {malformed : Code} (hm : malformed.isExchange = true) (id : Byte)
    (f : Fields) : (classify malformed id f).isExchange = true := by
  unfold classify
  split
  · exact hm
  · split
    · rfl
    · split <;> rfl

/-- A compaction keeps the buffer's clauses; what it does to a header at offset 0 is the caller's to say. -/
theorem Midway.compacted {s : State} (h : Midway s) {k : Nat} {fl : FlagRegs}
    (hseen : fl.hdrSeen = false ↔ fl.rstate = .seeking)
    (hhdr : fl.rstate = .partialFrame →
      4 ≤ (compact k s).rx.len ∧ (compact k s).rx.mem.readBytes 0 4 = Config.hdr) :
    Midway { compact k s with flags := fl } := by
  have hi := h.inv
  have hready : s.cfg.ready = false →
      (compact k s).rx.len = 0 ∧ fl.rstate = .seeking ∧ s.resp.valid = false :=
    fun hn => absurd hn (by simp [h.ready])
  by_cases hk : k = 0
  · subst hk
    exact ⟨{ hi with partialHdr := hhdr, seen := hseen, notReady := hready }, h.ready⟩
  · rw [compact_eq]
    rw [compact_rx hk h.rxIn] at hhdr hready ⊢
    refine ⟨{ hi with
      rxLen := (Nat.sub_le _ _).trans hi.rxLen
      rxWf := Memory.writeBytes_wf Memory.wf_nil _ _
      rxIn := fun c hc => ?_
      vacated := Nat.le_refl _
      partialHdr := hhdr
      seen := hseen
      notReady := hready }, h.ready⟩
    rcases Memory.mem_writeBytes hc with hc | ⟨-, hc⟩
    · cases hc
    · simpa using hc

theorem Midway.rxBytes_header {s : State} (h : Midway s) (hf : s.flags.rstate = .partialFrame) :
    s.rxBytes.take 4 = Config.hdr := by
  obtain ⟨hlen, hhdr⟩ := h.inv.partialHdr hf
  rw [State.rxBytes, Memory.readBytes_take _ _ _ _ hlen]
  exact hhdr

/-- No header found means that none was found before: `HDRSEEN` is still 0 (R151). -/
theorem Midway.seeking_of_none {s : State} (h : Midway s) (hn : hdrfind s.rxBytes = none) :
    s.flags = ⟨false, .seeking⟩ := by
  have hr : s.flags.rstate = .seeking := by
    cases hr : s.flags.rstate with
    | seeking => rfl
    | partialFrame =>
      rw [hdrfind_of_header (h.rxBytes_header hr)] at hn
      cases hn
  have hseen : s.flags.hdrSeen = false := h.inv.seen.mpr hr
  calc s.flags = ⟨s.flags.hdrSeen, s.flags.rstate⟩ := rfl
    _ = ⟨false, .seeking⟩ := by rw [hseen, hr]

/-- The bytes kept after an Incomplete answer begin with the header (R148 step 7d, R151). -/
theorem Midway.partial_header {s : State} (h : Midway s) {k : Nat} (hk : hdrfind s.rxBytes = some k) :
    4 ≤ (compact k s).rx.len ∧ (compact k s).rx.mem.readBytes 0 4 = Config.hdr := by
  have hlen := hdrfind_some_length hk
  rw [State.rxBytes_length] at hlen
  have hbytes : (compact k s).rxBytes = s.rxBytes.drop k := compact_rxBytes h.rxIn (by omega)
  have hge : 4 ≤ (compact k s).rx.len := by
    rw [← State.rxBytes_length, hbytes, List.length_drop, State.rxBytes_length]
    omega
  refine ⟨hge, ?_⟩
  rw [← Memory.readBytes_take _ _ _ _ hge]
  exact (congrArg (List.take 4) hbytes).trans (hdrfind_some hk)

/-- Every arm of step 7d (R148). -/
theorem Midway.actOn {s : State} (h : Midway s) : Midway (actOn (decodeFrameBytes s.rxBytes) s) := by
  unfold decodeFrameBytes
  split
  · next hn =>
    show Midway (noteSeeking (compact _ s))
    unfold noteSeeking
    rw [compact_flags, h.seeking_of_none hn]
    exact h.compacted (by simp) nofun
  · next k hk =>
    rcases decodeAt_cases s.rxBytes k with e | e | ⟨hw, e⟩
    · rw [e]
      exact h.compacted (by simp) fun _ => h.partial_header hk
    · rw [e]
      exact h.raiseOutcome h.malformed
    · have hroom : (paramsOf (fieldsAt s.rxBytes k).content).length + 11 ≤ s.cfg.cap := by
        have hparams := hw.params_length
        have hlen := h.rxLen
        have hcap := h.cap_ge
        rw [State.rxBytes_length] at hparams
        omega
      rcases e with e | e <;> rw [e]
      · exact (h.latch hroom).raiseOutcome rfl
      · exact (h.latch hroom).raiseOutcome (classify_isExchange h.malformed _ _)

theorem Midway.drainPass {s : State} (h : Midway s) : Midway (drainPass s) := by
  rcases drainPass_cases s with ⟨-, e⟩ | e <;> rw [e]
  · exact h.passInput.raiseOutcome rfl
  · exact h.passInput.actOn

/-! ## The exchange (R148) -/

theorem Midway.endQuiet {s : State} (h : Midway s) : Inv (endQuiet s) :=
  (h.raiseOutcome (by unfold quietOutcome; split <;> rfl)).inv_of_idle rfl

theorem Midway.moreAfterPass {s : State} (h : Midway s) : Midway (moreAfterPass s).2 := by
  refine h.congr ?_
  have hrx : (Machine.moreAfterPass s).2.rx = s.rx := by unfold Machine.moreAfterPass; split <;> rfl
  rw [(moreAfterPass_receives s).eq, hrx]

theorem Midway.drain {n : Nat} {s t : State} (h : Midway s) (ht : drain n s = some t) : Inv t := by
  obtain ⟨u, hu, ⟨hidle, rfl⟩ | ⟨-, -, rfl⟩⟩ := drain_induct (P := Midway)
    (fun u hu _ _ => hu.drainPass.moreAfterPass) ht h
  · exact hu.drainPass.inv_of_idle hidle
  · exact hu.drainPass.moreAfterPass.endQuiet

theorem Midway.receive {s t : State} (h : Midway s) (ht : receive s = some t) : Inv t := by
  have hw : Midway (readyWithin s).2 := h.congr rfl
  rcases receive_cases s with ⟨-, e⟩ | ⟨-, e⟩ <;> rw [e] at ht
  · exact hw.drain ht
  · cases ht
    exact hw.endQuiet

theorem Inv.exchange {id ins : Byte} {p : List Byte} {wait : Word40} {s t : State} (h : Inv s)
    (hp : s.takes p) (ht : exchange id ins p wait s = some t) : Inv t := by
  have hsent := h.sentState id ins wait hp
  rcases exchange_cases id ins p wait s with ⟨-, e⟩ | ⟨-, e⟩ <;> rw [e] at ht
  · exact Midway.receive (hsent.congr (t := enterSent _) rfl) ht
  · cases ht
    exact (hsent.raiseOutcome (o := .noResponse) rfl).inv_of_idle rfl

/-! ## Every instruction, every step -/

theorem Inv.effect {s t : State} (h : Inv s) (he : Effect s t) : Inv t := by
  cases he with
  | answer => exact h.congr rfl rfl rfl
  | encode id ins p hp => exact h.encodeInto id ins hp
  | deliver => exact h.congr rfl rfl rfl
  | policy => exact h.congr rfl rfl rfl
  | exchange hp ht => exact h.exchange hp ht

theorem Inv.rateEffect {s t : State} (h : Inv s) (he : RateEffect s t) : Inv t := by
  cases he with
  | effect he => exact h.effect he
  | rate => exact h.congr rfl rfl rfl

theorem Inv.rateEffects {s t : State} (h : Inv s) (he : RateEffects s t) : Inv t := by
  induction he with
  | refl => exact h
  | tail _ he ih => exact ih.rateEffect he

/-- A constructed session: the receive buffer is empty, and no exchange has run yet (R187, R255). -/
theorem Inv.constructed {s : State} (h : Inv s) (hn : s.cfg.ready = false) (cap : Word16)
    (waitUs baud : Word32) (bits stop parity : Byte) :
    Inv (clearTxLen (clearRx (configureSession cap waitUs baud bits stop parity s))) := by
  obtain ⟨hlen, hseek, hvalid⟩ := h.notReady hn
  have hmem : s.rx.mem = [] := List.eq_nil_iff_forall_not_mem.mpr fun c hc => by
    have := h.rxIn c hc
    omega
  have hcap : s.params.capMin ≤ max cap.toNat s.params.capMin := le_max_right _ _
  have hmin := h.params.1
  obtain ⟨-, -, -, -, hparams, -, -⟩ := h.cleared hvalid
  exact { h with
    rxLen := Nat.zero_le _
    txLen := Nat.zero_le _
    capMin := hcap
    rxWf := Memory.zeroTo_wf h.rxWf _
    rxIn := fun c hc => by
      have := (Memory.mem_zeroTo.mp hc).1
      rw [configureSession_rx, hmem] at this
      cases this
    vacated := Nat.zero_le _
    partialHdr := fun hf => absurd (hf.symm.trans hseek) nofun
    respFits := by
      show s.resp.params.length + 11 ≤ max cap.toNat s.params.capMin
      rw [hparams, List.length_nil]
      omega
    notReady := nofun }

theorem Inv.exec {i : Instr} {s t : State} (h : Inv s) (ht : exec i s = .next t) : Inv t := by
  by_cases hi : ∀ cap w b x y z, i ≠ .init cap w b x y z
  · exact h.rateEffects (exec_rateEffects hi ht)
  · push Not at hi
    obtain ⟨cap, w, b, x, y, z, rfl⟩ := hi
    rcases execInit_cases ht with ⟨c, rfl⟩ | ⟨hn, rfl⟩
    · exact h.congr rfl rfl rfl
    · exact (h.constructed hn cap w b x y z).congr rfl rfl rfl

/-- Every kind of request at the head of the queue. -/
theorem Inv.step {s t : State} (h : Inv s) (ht : step s = .next t) : Inv t := by
  have hport : ∀ rest, Inv { s with port := rest } := fun rest => h.congr rfl rfl rfl
  unfold Machine.step at ht
  split at ht
  · cases ht; exact h
  · exact (hport _).rateEffects (execAccess_effects ht).rateEffects
  · split at ht
    · exact (hport _).exec ht
    · cases ht
      exact (hport _).congr rfl rfl rfl

end Sys2Proof.Machine

/-- Settles O3, from the effects the instructions are made of; the effect with content is the exchange,
through which `Midway` is kept. -/
theorem everyStepKeepsTheInvariant : Obligations.EveryStepKeepsTheInvariant :=
  fun _ _ h ht => h.step ht

open Sys2Proof.Machine in
/-- Settles O2: the reset state is empty, and the default parameters meet their constraints. -/
theorem resetMeetsTheInvariant : Obligations.ResetMeetsTheInvariant where
  params := by decide
  idle := rfl
  rxLen := by decide
  txLen := by decide
  capMin := by decide
  rxWf := Memory.wf_nil
  txWf := Memory.wf_nil
  rxIn := nofun
  vacated := by decide
  txIn := nofun
  partialHdr := nofun
  seen := by decide
  outcome := .inl rfl
  cleared := fun _ => by decide
  respFits := by decide
  reqFits := by decide
  notReady := fun _ => by decide
end

section
/-!
# The bytes of a frame, and what DECODE makes of them (41_frame_encode R108, 42_frame_decode R126)
-/

namespace Sys2Proof

/-! ## DESTUFF undoes STUFF (R125) -/

/-- The two windows of lookback, after the same payload: DESTUFF's is over the raw bytes `c3 c2 c1`, STUFF's
over the payload bytes `b2 b1`. They differ only after a stuffing byte, and no drop is due. -/
structure WindowsAgree (c3 c2 c1 b2 b1 : Byte) : Prop where
  last : c1 = b1
  before : b1 = 0xFF → c2 = b2
  noDrop : ¬ (c3 = 0xFF ∧ c2 = 0xFF ∧ c1 = 0xFD)

theorem destuffFrom_stuffFrom {c3 c2 c1 b2 b1 : Byte} (h : WindowsAgree c3 c2 c1 b2 b1)
    (p : List Byte) : destuffFrom c3 c2 c1 (stuffFrom b2 b1 p) = p := by
  induction p generalizing c3 c2 c1 b2 b1 with
  | nil => rfl
  | cons b bs ih =>
    obtain ⟨rfl, hbefore, hdrop⟩ := h
    unfold stuffFrom
    split
    · next hs =>
      obtain ⟨rfl, rfl, rfl⟩ := hs
      rw [destuffFrom, if_neg hdrop, destuffFrom, if_pos ⟨hbefore rfl, rfl, rfl⟩]
      exact congrArg _ (ih ⟨rfl, by decide, by decide⟩)
    · next hs =>
      rw [destuffFrom, if_neg hdrop]
      refine congrArg _ (ih ⟨rfl, fun _ => rfl, fun ⟨h2, h1, h0⟩ => hs ⟨?_, h1, h0⟩⟩)
      rw [← hbefore h1, h2]

theorem destuff_stuff (p : List Byte) : destuff (stuff p) = p :=
  destuffFrom_stuffFrom ⟨rfl, fun _ => rfl, by decide⟩ p

/-! ## The fields of a frame -/

theorem joinU16_le16 (v : Word16) : joinU16 (lo8 v) (hi8 v) = v := by
  ext i hi
  simp only [joinU16, lo8, hi8, BitVec.getElem_or, BitVec.getElem_setWidth,
    BitVec.getElem_shiftLeft, BitVec.getLsbD_setWidth, BitVec.getLsbD_ushiftRight]
  by_cases h : i < 8
  · simp [h, hi]
  · simp [h, hi, show i - 8 < 8 by omega, show 8 + (i - 8) = i by omega]

theorem frameLenAt_frame (id ins : Byte) {c : List Byte} (tail : List Byte)
    (hc : c.length + 3 ≤ 0xFFFF) : frameLenAt (frameHead id ins c ++ tail) 0 = c.length + 10 := by
  show 7 + (joinU16 (lo8 (BitVec.ofNat 16 (c.length + 3))) (hi8 _)).toNat = _
  rw [joinU16_le16, BitVec.toNat_ofNat, Nat.mod_eq_of_lt (by omega)]
  omega

/-- The fields DECODE extracts from a frame that stands at offset 0. -/
theorem fieldsAt_frameOf (id ins : Byte) {p : List Byte} (hp : (stuff p).length + 3 ≤ 0xFFFF) :
    fieldsAt (frameOf id ins p) 0 =
      ⟨0, id, ins, p, crc16 (frameHead id ins (stuff p)), crc16 (frameHead id ins (stuff p))⟩ := by
  have hflen : frameLenAt (frameOf id ins p) 0 = (stuff p).length + 10 := frameLenAt_frame id ins _ hp
  have hcontent : slice (frameOf id ins p) 8 ((stuff p).length + 8) = stuff p := by
    show (stuff p ++ le16 _).take ((stuff p).length + 8 - 8) = stuff p
    rw [Nat.add_sub_cancel, List.take_left]
  have hhead : slice (frameOf id ins p) 0 ((stuff p).length + 8) = frameHead id ins (stuff p) :=
    List.take_left' (by rw [frameHead_length]; omega)
  have hcrc : ∀ i, byteAt (frameOf id ins p) ((stuff p).length + 8 + i) =
      byteAt (le16 (crc16 (frameHead id ins (stuff p)))) i := fun i => by
    rw [byteAt, frameOf, List.getD_append_right _ _ _ _ (by rw [frameHead_length]; omega),
      frameHead_length, Nat.add_sub_cancel_left, byteAt]
  rw [fieldsAt, hflen]
  simp only [Nat.zero_add, show (stuff p).length + 10 - 2 = (stuff p).length + 8 + 0 by omega,
    show (stuff p).length + 10 - 1 = (stuff p).length + 8 + 1 by omega, hcrc]
  simp only [Nat.add_zero, hcontent, hhead, destuff_stuff]
  exact congrArg _ (joinU16_le16 _)

theorem byteAt_take (buf : List Byte) {i k : Nat} (h : i < k) :
    byteAt (buf.take k) i = byteAt buf i := by
  simp [byteAt, List.getD_eq_getElem?_getD, h]

/-- `fr` is one frame with these fields: DECODE succeeds on all of it, and on any part that holds the header
it answers Incomplete. -/
structure DecodesWhole (fr : List Byte) (f : Fields) : Prop where
  cut : ∀ k, 4 ≤ k → k < fr.length → decodeFrameBytes (fr.take k) = .incomplete 0
  whole : decodeFrameBytes fr = .success f

theorem decodeFrameBytes_of_header {buf : List Byte} (h : buf.take 4 = Config.hdr) :
    decodeFrameBytes buf = decodeAt buf 0 := by
  rw [decodeFrameBytes, hdrfind_of_header h]

theorem frameOf_decodesWhole (id ins : Byte) {p : List Byte} (hp : (stuff p).length + 3 ≤ 0xFFFF) :
    DecodesWhole (frameOf id ins p)
      ⟨0, id, ins, p, crc16 (frameHead id ins (stuff p)), crc16 (frameHead id ins (stuff p))⟩ where
  cut k hk hlt := by
    have hflen : frameLenAt (frameOf id ins p) 0 = (stuff p).length + 10 :=
      frameLenAt_frame id ins _ hp
    rw [frameOf_length] at hlt
    rw [decodeFrameBytes_of_header (by rw [List.take_take, min_eq_left hk]; rfl), decodeAt]
    split
    · rfl
    · next h7 =>
      rw [List.length_take, frameOf_length] at h7 ⊢
      have hk7 : 7 ≤ k := by omega
      rw [if_pos]
      rw [frameLenAt, byteAt_take _ (by omega), byteAt_take _ (by omega)]
      rw [frameLenAt] at hflen
      omega
  whole := by
    have hflen : frameLenAt (frameOf id ins p) 0 = (stuff p).length + 10 :=
      frameLenAt_frame id ins _ hp
    rw [decodeFrameBytes_of_header rfl, decodeAt, hflen, frameOf_length, if_neg (by omega),
      if_neg (by omega), if_neg (by omega), fieldsAt_frameOf id ins hp, if_neg (by simp)]

theorem frameOf_take_head (id ins : Byte) (p : List Byte) :
    (frameOf id ins p).take ((frameOf id ins p).length - 2) = frameHead id ins (stuff p) := by
  rw [frameOf_length]
  exact List.take_left' (by rw [frameHead_length]; omega)

end Sys2Proof
end

section
/-!
# A frame that stands in the channel when an exchange starts

On a channel where no time passes between the calls and every read gives its byte, REFILL (43_session_exchange
R142) just moves bytes from the channel into the buffer, and the drain loop goes on until DECODE ends it.
-/

namespace Sys2Proof.Machine

/-- No time passes between the calls, and a ready channel gives its oldest byte. -/
structure Transport.Steady (l : Transport) : Prop where
  lag : l.lag = []
  balk : l.balk = []

theorem Transport.Steady.tick {l : Transport} (h : l.Steady) : l.tick = l := by
  rw [Transport.tick, h.lag]

theorem Transport.Steady.readyNow {l : Transport} (h : l.Steady) :
    l.readyNow = (!l.avail.isEmpty, l) := by
  rw [Transport.readyNow, h.tick]

theorem Transport.Steady.readOne {l : Transport} (h : l.Steady) {b : Byte} {bs : List Byte}
    (ha : l.avail = b :: bs) : l.readOne = (some b, { l with avail := bs }) := by
  simp only [Transport.readOne, Transport.take, h.tick, ha, h.balk]

theorem Transport.Steady.readyWithin {l : Transport} (h : l.Steady) (t : Word40)
    (ha : l.avail ≠ []) : l.readyWithin t = (true, l) := by
  simp [Transport.readyWithin, h.tick, ha]

theorem readyNow_of_steady {s : State} (h : s.line.Steady) :
    readyNow s = (!s.line.avail.isEmpty, s) := by
  rw [readyNow, h.readyNow]

theorem readyWithin_of_steady {s : State} (h : s.line.Steady) (ha : s.line.avail ≠ []) :
    readyWithin s = (true, s) := by
  rw [readyWithin, h.readyWithin _ ha]

/-! ## REFILL moves bytes -/

/-- The oldest `n` pending bytes have moved to the end of the receive buffer. -/
def moveBytes (n : Nat) (s : State) : State :=
  { s with
    rx := { s.rx with
      mem := s.rx.mem.writeBytes s.rx.len (s.line.avail.take n), len := s.rx.len + n }
    line := { s.line with avail := s.line.avail.drop n } }

@[simp] theorem moveBytes_zero (s : State) : moveBytes 0 s = s := rfl

theorem moveBytes_moveBytes_one {s : State} {b : Byte} {bs : List Byte} (ha : s.line.avail = b :: bs)
    (n : Nat) : moveBytes n (moveBytes 1 s) = moveBytes (n + 1) s := by
  simp [moveBytes, ha, Memory.writeBytes, Nat.add_assoc, Nat.add_comm 1]

theorem refillUpTo_succ_of_steady {s : State} (k : Nat) (h : s.line.Steady)
    (hfull : s.rx.len ≠ s.cfg.cap) {b : Byte} {bs : List Byte} (ha : s.line.avail = b :: bs) :
    refillUpTo (k + 1) s = refillUpTo k (moveBytes 1 s) := by
  have hread : readOne s = (some b, { s with line := { s.line with avail := bs } }) := by
    rw [readOne, h.readOne ha]
  rw [refillUpTo, if_neg hfull, readyNow_of_steady h]
  simp only [hread, ha, List.isEmpty_cons, Bool.not_false, if_true]
  refine congrArg _ ?_
  simp only [moveBytes, appendRx, ha, List.take_succ_cons, List.take_zero, Memory.writeBytes,
    List.drop_succ_cons, List.drop_zero]

/-- REFILL stops at its quota, at the buffer's end, or when nothing is pending (R142). -/
theorem refillUpTo_of_steady {s : State} (k : Nat) (h : s.line.Steady) (hc : s.rx.len ≤ s.cfg.cap) :
    refillUpTo k s = moveBytes (min k (min (s.cfg.cap - s.rx.len) s.line.avail.length)) s := by
  induction k generalizing s with
  | zero => simp [refillUpTo]
  | succ k ih =>
    by_cases hfull : s.rx.len = s.cfg.cap
    · simp [refillUpTo, hfull]
    · cases ha : s.line.avail with
      | nil => simp [refillUpTo, hfull, readyNow_of_steady h, ha]
      | cons b bs =>
        have hcap : (moveBytes 1 s).cfg.cap - (moveBytes 1 s).rx.len = s.cfg.cap - s.rx.len - 1 := rfl
        have hlen : (moveBytes 1 s).line.avail.length = bs.length := by simp [moveBytes, ha]
        have hroom : (moveBytes 1 s).rx.len ≤ (moveBytes 1 s).cfg.cap := by
          show s.rx.len + 1 ≤ s.cfg.cap
          omega
        rw [refillUpTo_succ_of_steady k h hfull ha, ih (s := moveBytes 1 s) ⟨h.lag, h.balk⟩ hroom,
          hcap, hlen, moveBytes_moveBytes_one ha, List.length_cons]
        congr 1
        omega

/-- Bytes written behind the first `n` are read back behind them. -/
theorem Memory.readBytes_writeBytes_append {m : Memory} (hm : Memory.wf m) (n : Nat) (l : List Byte) :
    (m.writeBytes n l).readBytes 0 (n + l.length) = m.readBytes 0 n ++ l := by
  rw [Memory.readBytes_append, Nat.zero_add, Memory.readBytes_writeBytes hm]
  refine congrArg (· ++ l) (Memory.readBytes_congr fun i _ hi => ?_)
  exact Memory.read_writeBytes_other m l (.inl (by omega))

theorem moveBytes_rxBytes {s : State} (hm : Memory.wf s.rx.mem) {n : Nat}
    (hn : n ≤ s.line.avail.length) : (moveBytes n s).rxBytes = s.rxBytes ++ s.line.avail.take n := by
  have hlen : (s.line.avail.take n).length = n := by simpa using hn
  have h := Memory.readBytes_writeBytes_append hm s.rx.len (s.line.avail.take n)
  rw [hlen] at h
  exact h

/-! ## The drain loop over a pending frame -/

/-- The first `k` bytes of `fr` stand in the receive buffer, which has room for all of it, and the others
are pending on a steady channel. -/
structure Reading (fr : List Byte) (k : Nat) (s : State) : Prop where
  wf : Memory.wf s.rx.mem
  bytes : s.rxBytes = fr.take k
  pending : s.line.avail = fr.drop k
  steady : s.line.Steady
  le : k ≤ fr.length
  room : fr.length ≤ s.cfg.cap

theorem Reading.rxLen {fr : List Byte} {k : Nat} {s : State} (h : Reading fr k s) : s.rx.len = k := by
  rw [← State.rxBytes_length, h.bytes, List.length_take, min_eq_left h.le]

/-- Only the buffer, the channel and the capacity are looked at. -/
theorem Reading.congr {fr : List Byte} {k : Nat} {s t : State} (h : Reading fr k s)
    (hrx : t.rx = s.rx) (hline : t.line = s.line) (hcfg : t.cfg = s.cfg) : Reading fr k t where
  wf := hrx ▸ h.wf
  bytes := by rw [← h.bytes, State.rxBytes, State.rxBytes, hrx]
  pending := hline ▸ h.pending
  steady := hline ▸ h.steady
  le := h.le
  room := hcfg ▸ h.room

theorem Reading.moved {fr : List Byte} {k n : Nat} {s : State} (h : Reading fr k s)
    (hn : k + n ≤ fr.length) : Reading fr (k + n) (moveBytes n s) where
  wf := Memory.writeBytes_wf h.wf _ _
  bytes := by
    have hle : n ≤ s.line.avail.length := by rw [h.pending, List.length_drop]; omega
    rw [moveBytes_rxBytes h.wf hle, h.bytes, h.pending, ← List.take_add]
  pending := by
    show s.line.avail.drop n = _
    rw [h.pending, List.drop_drop]
  steady := ⟨h.steady.lag, h.steady.balk⟩
  le := hn
  room := h.room

/-- How many bytes one pass reads: a quota, or all that is left (R141, R142). -/
def passBytes (fr : List Byte) (k cap : Nat) : Nat := min (quota cap) (fr.length - k)

theorem Reading.refill_eq {fr : List Byte} {k : Nat} {s : State} (h : Reading fr k s) :
    refill s = moveBytes (passBytes fr k s.cfg.cap) s := by
  have hle := h.le
  have hroom := h.room
  have hlen : s.line.avail.length = fr.length - k := by rw [h.pending, List.length_drop]
  rw [refill, refillUpTo_of_steady _ h.steady (h.rxLen.trans_le (hle.trans hroom)), hlen, h.rxLen,
    passBytes]
  congr 2
  omega

/-- The buffer cannot overflow: when it is full the frame is read, and nothing is pending (R144). -/
theorem Reading.no_overflow {fr : List Byte} {k : Nat} {s : State} (h : Reading fr k s) :
    overflowTest s = (false, s) := by
  rcases overflowTest_cases s with ⟨hfull, e⟩ | ⟨-, e⟩
  · have hroom := h.room
    rw [h.rxLen] at hfull
    rw [e, readyNow_of_steady h.steady, h.pending, List.drop_eq_nil_of_le (by omega)]
    rfl
  · exact e

/-- One pass reads on and decodes what it then has. -/
theorem Reading.pass {fr : List Byte} {k n : Nat} {s : State} (h : Reading fr k s)
    (hn : n = passBytes fr k s.cfg.cap) :
    Reading fr (k + n) (moveBytes n (enterDraining s)) ∧
    drainPass s = actOn (decodeFrameBytes (fr.take (k + n))) (moveBytes n (enterDraining s)) := by
  have hle := h.le
  have hstart : Reading fr k (enterDraining s) := h.congr rfl rfl rfl
  have hread : Reading fr (k + n) (moveBytes n (enterDraining s)) :=
    hstart.moved (by rw [hn, passBytes]; omega)
  refine ⟨hread, ?_⟩
  rw [drainPass, hstart.refill_eq, enterDraining_cfg, ← hn, hread.no_overflow, ← hread.bytes]

/-- After an Incomplete pass with bytes pending the loop goes on from the same state (R148 step 7e). -/
theorem Reading.more {fr : List Byte} {k : Nat} {s : State} (h : Reading fr k s)
    (hk : k < fr.length) : moreAfterPass s = (true, s) := by
  have hne : s.line.avail.isEmpty = false := by
    rw [h.pending, List.isEmpty_eq_false_iff, ← List.length_pos_iff, List.length_drop]
    omega
  simp [moreAfterPass, readyNow_of_steady h.steady, hne]

/-- The drain loop reads the frame to its last byte and acts on its fields. -/
theorem Reading.drain_acts {fr : List Byte} {f : Fields} (hd : DecodesWhole fr f) {n k : Nat} {s : State}
    (h : Reading fr k s) (hcap : 11 ≤ s.cfg.cap) (hk : k < fr.length) (hn : fr.length < k + n) :
    ∃ v, Reading fr fr.length v ∧ v.params = s.params ∧ v.req = s.req ∧
      drain n s = some (actOn (.success f) v) := by
  induction n generalizing k s with
  | zero => omega
  | succ n ih =>
    obtain ⟨hread, hpass⟩ := h.pass rfl
    have hquota : 5 ≤ quota s.cfg.cap := by rw [quota]; omega
    generalize hj : passBytes fr k s.cfg.cap = j at hread hpass
    rw [passBytes] at hj
    by_cases hlast : k + j = fr.length
    · rw [hlast] at hread hpass
      rw [List.take_length, hd.whole] at hpass
      refine ⟨_, hread, rfl, rfl, ?_⟩
      rw [drain, hpass]
      exact if_pos rfl
    · rw [hd.cut _ (by omega) (by omega)] at hpass
      have hnext : Reading fr (k + j) (drainPass s) := by
        rw [hpass]
        exact hread.congr rfl rfl rfl
      have hmore := hnext.more (by omega)
      have hcfg : (drainPass s).cfg = s.cfg := by rw [hpass]; rfl
      obtain ⟨v, hv, hparams, hreq, hdrain⟩ := ih hnext (hcfg ▸ hcap) (by omega) (by omega)
      rw [hpass] at hparams hreq
      refine ⟨v, hv, hparams, hreq, ?_⟩
      rw [drain, if_neg (by rw [hpass]; nofun), hmore]
      exact hdrain

/-! ## The exchange -/

/-- What a quiet send leaves on a steady channel with no planned reply: the frame among those sent. -/
theorem Transport.Steady.send {l : Transport} (h : l.Steady) (hr : l.replies = []) (fr : List Byte) :
    l.send fr = (true, { l with sent := l.sent ++ [fr] }) := by
  rw [Transport.send, h.tick, Transport.emit, hr]

/-- An exchange that starts with one whole frame pending takes it as its response (10_state R24,
70_reset_and_hazards R262). -/
theorem exchange_of_pending {fr : List Byte} {f : Fields} (hd : DecodesWhole fr f) {s : State}
    (hs : Inv s) (hline : s.line.Steady) (hreplies : s.line.replies = []) (ha : s.line.avail = fr)
    (hne : fr ≠ []) (hroom : fr.length ≤ s.cfg.cap) (id ins : Byte) (p : List Byte) (wait : Word40) :
    ∃ v, Reading fr fr.length v ∧ v.params = s.params ∧ v.req = ⟨id, ins, p, wait⟩ ∧
      exchange id ins p wait s = some (actOn (.success f) v) := by
  have hsend := hline.send hreplies (beginExchange id ins p wait s).txBytes
  have hsent : sendFrame (beginExchange id ins p wait s) = (true, sentState id ins p wait s) :=
    Prod.ext (congrArg Prod.fst hsend :) rfl
  have hsentLine : (sentState id ins p wait s).line = { s.line with
      sent := s.line.sent ++ [(beginExchange id ins p wait s).txBytes] } := congrArg Prod.snd hsend
  have havail : (sentState id ins p wait s).line.avail = fr := by rw [hsentLine, ← ha]
  have hsteady : (sentState id ins p wait s).line.Steady := by
    rw [hsentLine]
    exact ⟨hline.lag, hline.balk⟩
  have hread : Reading fr 0 (enterSent (sentState id ins p wait s)) :=
    ⟨Memory.zeroTo_wf hs.rxWf _, rfl, havail, hsteady, Nat.zero_le _, hroom⟩
  have hready : readyWithin (enterSent (sentState id ins p wait s)) =
      (true, enterSent (sentState id ins p wait s)) :=
    readyWithin_of_steady hsteady (havail.trans_ne hne)
  have hbound : fr.length < 0 + passBound (enterSent (sentState id ins p wait s)) := by
    rw [passBound, Transport.stock_eq, enterSent_line, havail]
    omega
  obtain ⟨v, hv, hparams, hreq, hdrain⟩ :=
    hread.drain_acts hd hs.cap_ge (List.length_pos_iff.mpr hne) hbound
  refine ⟨v, hv, hparams, hreq, ?_⟩
  rw [exchange, hsent]
  simp only [receive, hready, hdrain]

/-! ## W.STATUS, then XCHG -/

theorem classify_status (malformed : Code) (id rid : Byte) (f : Fields) {err : Byte}
    {params : List Byte} (hid : f.id = rid) (hf : f.content = err :: params) :
    classify malformed id f = statusOutcome id rid err := by
  rw [classify, statusOutcome, hf, if_neg nofun, hid]
  rfl

/-- The response registers after a checksum-valid status frame (43_session_exchange R152, R154). -/
theorem actOn_status_resp (s : State) (rid st err : Byte) (params : List Byte) (c : Word16) :
    (actOn (.success ⟨0, rid, st, err :: params, c, c⟩) s).resp =
      ⟨statusOutcome s.req.id rid err, true, rid, st, err, params, c, c⟩ := by
  rw [actOn, classify_status _ _ rid _ rfl rfl]
  rfl

theorem execWStatus_of_fits {id err : Byte} {params : List Byte} (s : State)
    (h : payloadFits (err :: params) = true) :
    execWStatus id err params s =
      .next { s with line := s.line.deliver (frameOf id s.params.codes.status (err :: params)) } := by
  rw [execWStatus, deliverStatus, if_pos h]

theorem Reading.read_all {fr : List Byte} {v : State} (h : Reading fr fr.length v) :
    v.rxBytes = fr ∧ v.line.avail = [] := by
  rw [h.bytes, h.pending]
  simp

/-- An accepted XCHG is its exchange with the outcome presented. -/
theorem execXchg_of_exchange {id ins : Byte} {p : List Byte} {wait : Word40} {s t : State}
    (hi : s.xstate = .idle) (hp : s.takes p) (h : exchange id ins p wait (setAttempt 1 s) = some t) :
    execXchg id ins p wait s = .next (presentOutcome t) := by
  rw [execXchg, runXchg, if_pos ((accepts_iff p s).mpr ⟨hi, hp⟩), h]
  rfl

end Sys2Proof.Machine

open Sys2Proof Sys2Proof.Machine in
/-- Settles O41: the drain loop reads the pending frame to its last byte, since DECODE answers Incomplete on
every shorter part, and then acts on its fields. -/
theorem pendingFrameAnswersTheNextExchange : Obligations.PendingFrameAnswersTheNextExchange := by
  intro s id ins rid err p params fr wait c hs hp hsilent hreplies hfits hfr hc hroom
  obtain ⟨havail, -, hlag, hbalk, -⟩ := hsilent
  have hpayload : (stuff (err :: params)).length + 3 ≤ 0xFFFF := of_decide_eq_true hfits
  have hwhole := frameOf_decodesWhole rid s.params.codes.status hpayload
  rw [← frameOf_take_head, ← hfr, ← hc] at hwhole
  have hdeliver := execWStatus_of_fits (id := rid) s hfits
  rw [← hfr] at hdeliver
  obtain ⟨v, hv, -, hreq, hx⟩ := exchange_of_pending hwhole
    (s := setAttempt 1 { s with line := s.line.deliver fr }) (hs.congr rfl rfl rfl) ⟨hlag, hbalk⟩
    hreplies (congrArg (· ++ fr) havail) (by rw [hfr]; nofun) hroom id ins p wait
  obtain ⟨hbytes, hpending⟩ := hv.read_all
  refine ⟨_, _, hdeliver, execXchg_of_exchange hs.idle hp hx, ?_, hbytes, hpending⟩
  have hresp := actOn_status_resp v rid s.params.codes.status err params c
  rwa [hreq] at hresp
end

section
/-!
# The channel delivers in order (20_memory R46 to R52)

`Transport.coming` is what is pending and then what is on its way. Each call is one `tick`, in which time passes, and
one operation; so is its effect on what is coming, and on whether a byte can be taken now.
-/

namespace Sys2Proof.Machine

/-! ## What is coming -/

@[simp] theorem Transport.tick_coming (l : Transport) : l.tick.coming = l.coming := by
  unfold Transport.tick
  split
  · rfl
  · simp [Transport.coming, arrive_stream]

/-- A read takes the oldest byte of what is coming, or leaves all of it (R51, R52 (a)). -/
theorem Transport.readOne_coming (l : Transport) :
    (∃ b, l.readOne.1 = some b ∧ l.coming = b :: l.readOne.2.coming) ∨
    (l.readOne.1 = none ∧ l.readOne.2.coming = l.coming) := by
  have h := l.tick.take_coming
  rwa [Transport.tick_coming] at h

/-- A wait on an empty channel leaves what is coming, unless nothing is left but what an endless line
repeats: then its next byte is there (R50; log 4). -/
theorem Transport.await_coming {l : Transport} (t : Nat) (ha : l.avail = []) :
    (l.await t).2.coming = l.coming ∨
    ∃ b bs, l.babble = b :: bs ∧ l.coming = [] ∧
      l.await t = (true, { l with avail := [b], babble := bs ++ [b] }) := by
  unfold Transport.await
  split
  · next c cs hf => left; split <;> simp [Transport.coming, ha, hf]
  · next hf =>
    split
    · exact .inl rfl
    · next b bs hb => exact .inr ⟨b, bs, hb, by simp [Transport.coming, ha, hf], rfl⟩

theorem Transport.readyWithin_coming (t : Word40) (l : Transport) :
    (l.readyWithin t).2.coming = l.coming ∨
    ∃ b bs, l.babble = b :: bs ∧ l.coming = [] ∧ (l.readyWithin t).1 = true ∧
      (l.readyWithin t).2.coming = [b] ∧ (l.readyWithin t).2.babble = bs ++ [b] := by
  unfold Transport.readyWithin
  split
  · next ha =>
    rcases l.tick.await_coming t.toNat (List.isEmpty_iff.mp ha) with h | ⟨b, bs, hb, hc, e⟩
    · exact .inl (h.trans l.tick_coming)
    · rw [Transport.tick_babble] at hb
      rw [Transport.tick_coming] at hc
      have hfuture : (l.tick.future.map (·.bytes)).flatten = [] :=
        (List.append_eq_nil_iff.mp (l.tick_coming.trans hc)).2
      rw [e]
      exact .inr ⟨b, bs, hb, hc, rfl, congrArg (b :: ·) hfuture, rfl⟩
  · exact .inl l.tick_coming

theorem Transport.send_sent (frame : List Byte) (l : Transport) :
    (l.send frame).2.sent = l.sent ++ [frame] := by
  rw [Transport.send, (Transport.emit_fields frame l.tick).1, l.tick_listens.sent]

/-- A send beyond the plan succeeds and nothing comes back (log 28). -/
theorem Transport.send_of_no_reply (frame : List Byte) {l : Transport} (h : l.replies = []) :
    (l.send frame).1 = true ∧ (l.send frame).2.coming = l.coming := by
  have hr : l.tick.replies = [] := l.tick_listens.replies.trans h
  rw [← l.tick_coming]
  simp [Transport.send, Transport.emit, hr, Transport.coming]

/-- A send answers as the plan's next reply says, and the reply's bytes join what is coming (R48; log 3). -/
theorem Transport.send_of_reply (frame : List Byte) {l : Transport} {r : Reply} {rs : List Reply}
    (h : l.replies = r :: rs) :
    (l.send frame).1 = r.ok ∧ (l.send frame).2.coming =
      l.coming ++ (if r.ok then (r.chunks.map (·.bytes)).flatten else []) := by
  have hr : l.tick.replies = r :: rs := l.tick_listens.replies.trans h
  rw [← l.tick_coming]
  cases hok : r.ok <;> simp [Transport.send, Transport.emit, hr, hok, Transport.coming]

/-! ## A ready channel -/

theorem Transport.readyNow_iff (l : Transport) : l.readyNow.1 = true ↔ l.tick.avail ≠ [] := by
  simp [Transport.readyNow]

/-- What can be taken now does not go away as time passes (R52 (b)). -/
theorem Transport.tick_avail_ne_nil {l : Transport} (h : l.avail ≠ []) : l.tick.avail ≠ [] := by
  unfold Transport.tick
  split
  · exact h
  · exact List.append_ne_nil_of_left_ne_nil h _

/-- A channel with a pending byte is ready. -/
theorem Transport.readyNow_of_pending {l : Transport} (h : l.avail ≠ []) : l.readyNow.1 = true :=
  l.readyNow_iff.mpr (Transport.tick_avail_ne_nil h)

theorem Transport.readyWithin_of_pending (t : Word40) {l : Transport} (h : l.avail ≠ []) :
    l.readyWithin t = (true, l.tick) :=
  if_neg (by simpa using Transport.tick_avail_ne_nil h)

theorem Transport.send_pending (frame : List Byte) {l : Transport} (h : l.avail ≠ []) :
    (l.send frame).2.avail ≠ [] := by
  obtain ⟨-, havail, -⟩ := Transport.emit_fields frame l.tick
  rw [Transport.send, havail]
  exact Transport.tick_avail_ne_nil h

end Sys2Proof.Machine

open Sys2Proof.Machine in
/-- Settles O49, call by call: each leaves what is coming or takes or adds what R46 to R52 say, and a byte that
is pending stays so. -/
theorem transportDeliversInOrder : Obligations.TransportDeliversInOrder := by
  rintro l _ rfl
  refine ⟨fun b hb => ?_, fun hn => ?_, l.tick_coming, fun t => l.readyWithin_coming t,
    fun frame => ⟨l.send_sent frame, l.send_of_no_reply frame, fun _ _ => l.send_of_reply frame⟩,
    fun _ _ _ _ => rfl, fun _ => rfl, fun hready => ?_⟩
  · rcases l.readOne_coming with ⟨c, hc, h⟩ | ⟨hc, -⟩
    · cases hb.symm.trans hc
      exact h
    · cases hb.symm.trans hc
  · rcases l.readOne_coming with ⟨c, hc, -⟩ | ⟨-, h⟩
    · cases hn.symm.trans hc
    · exact h
  · have hpending : l.readyNow.2.avail ≠ [] := l.readyNow_iff.mp hready
    refine ⟨Transport.readyNow_of_pending hpending, fun t => ?_,
      fun frame => Transport.readyNow_of_pending (Transport.send_pending frame hpending),
      fun _ _ _ _ => Transport.readyNow_of_pending hpending,
      fun _ => Transport.readyNow_of_pending hpending⟩
    rw [Transport.readyWithin_of_pending t hpending]
    exact ⟨rfl, Transport.readyNow_of_pending (Transport.tick_avail_ne_nil hpending)⟩
end

section
/-!
# An exchange on a line that goes quiet ends (43_session_exchange R157)

Every pass of the drain loop after which the exchange goes on uses up a byte, a chunk or a refused read of the plan,
and `passBound` is more than the plan holds. So only an endless line can keep the block in Draining.
-/

namespace Sys2Proof.Machine

/-! ## What a call uses up -/

/-- On a line that goes quiet, what happens between `l` and `l'` uses up at least `n` of the plan, and the line
still goes quiet. -/
def Transport.Spends (n : Nat) (l l' : Transport) : Prop :=
  l.goesQuiet → l'.goesQuiet ∧ l'.stock + n ≤ l.stock

theorem Transport.Spends.refl (l : Transport) : l.Spends 0 l := fun hq => ⟨hq, Nat.le_refl _⟩

theorem Transport.Spends.trans {a b c : Transport} {n m : Nat} (h : a.Spends n b) (h' : b.Spends m c) :
    a.Spends (n + m) c := fun hq => by
  obtain ⟨hb, hn⟩ := h hq
  obtain ⟨hc, hm⟩ := h' hb
  exact ⟨hc, by omega⟩

theorem Transport.Spends.weaken {l l' : Transport} {n : Nat} (h : l.Spends n l') : l.Spends 0 l' :=
  fun hq => ⟨(h hq).1, by have := (h hq).2; omega⟩

theorem Transport.tick_spends (l : Transport) : l.Spends 0 l.tick :=
  fun hq => ⟨l.tick_babble.trans hq, l.tick_stock⟩

/-- Bytes arrive only out of a chunk, which is used up. -/
theorem arrive_stock_lt {t : Nat} {cs : List Chunk} (h : (arrive t cs).1 ≠ []) :
    (arrive t cs).1.length + chunkStock (arrive t cs).2 + 1 ≤ chunkStock cs := by
  cases cs with
  | nil => exact absurd rfl h
  | cons c cs =>
    unfold arrive at h ⊢
    split
    · have := arrive_stock (t - c.gap) cs
      simp only [List.length_append, chunkStock_cons]
      omega
    · next hgap => rw [if_neg hgap] at h; exact absurd rfl h

/-- An empty channel becomes ready only by a chunk of the plan. -/
theorem Transport.readyNow_spends {l : Transport} (ha : l.avail = []) :
    l.Spends l.readyNow.1.toNat l.readyNow.2 := by
  cases hr : l.readyNow.1 with
  | false => exact l.tick_spends
  | true =>
    refine fun hq => ⟨l.tick_babble.trans hq, ?_⟩
    have hpending := l.readyNow_iff.mp hr
    show l.tick.stock + 1 ≤ l.stock
    unfold Transport.tick at hpending ⊢
    split at hpending
    · exact absurd ha hpending
    · simp only [ha, List.nil_append] at hpending
      have := arrive_stock_lt hpending
      simp only [Transport.stock_eq, ha, List.nil_append, List.length_nil]
      omega

theorem Transport.await_spends {l : Transport} (t : Nat) (ha : l.avail = []) :
    l.Spends (l.await t).1.toNat (l.await t).2 := fun hq => by
  obtain ⟨hle, hlt⟩ := Transport.await_stock t hq ha
  refine ⟨Transport.await_babble t hq, ?_⟩
  cases hb : (l.await t).1 with
  | false => exact hle
  | true => exact hlt hb

/-- A wait on an empty channel is answered yes only by a chunk of the plan. -/
theorem Transport.readyWithin_spends_of_empty (t : Word40) {l : Transport} (ha : l.avail = []) :
    l.Spends (l.readyWithin t).1.toNat (l.readyWithin t).2 := by
  unfold Transport.readyWithin
  split
  · next h =>
    have hw := l.tick_spends.trans (l.tick.await_spends t.toNat (List.isEmpty_iff.mp h))
    rwa [Nat.zero_add] at hw
  · next h =>
    have hr := Transport.readyNow_spends ha
    rwa [l.readyNow_iff.mpr (by simpa using h)] at hr

theorem Transport.readyWithin_spends (t : Word40) (l : Transport) :
    l.Spends 0 (l.readyWithin t).2 := by
  unfold Transport.readyWithin
  split
  · next h => exact l.tick_spends.trans (l.tick.await_spends _ (List.isEmpty_iff.mp h)).weaken
  · exact l.tick_spends

theorem Transport.take_spends (l : Transport) : l.Spends 0 l.take.2 :=
  fun hq => ⟨l.take_babble.trans hq, by
    rcases l.take_stock with ⟨-, e⟩ | h
    · rw [e]; exact Nat.le_refl _
    · omega⟩

/-- A read of a pending byte takes it, or uses up the plan's answer that refuses it. -/
theorem Transport.take_spends_of_pending {l : Transport} (h : l.avail ≠ []) : l.Spends 1 l.take.2 :=
  fun hq => ⟨l.take_babble.trans hq, l.take_stock.resolve_left fun hn => h hn.1⟩

theorem Transport.readOne_spends (l : Transport) : l.Spends 0 l.readOne.2 :=
  l.tick_spends.trans l.tick.take_spends

/-- REFILL reads only after a `T.ready_now` that answered true (R142). -/
theorem Transport.read_when_ready_spends {l : Transport} (h : l.readyNow.1 = true) :
    l.Spends 1 l.readyNow.2.readOne.2 := by
  have hpending : l.readyNow.2.avail ≠ [] := l.readyNow_iff.mp h
  exact l.tick_spends.trans (l.readyNow.2.tick_spends.trans
    (Transport.take_spends_of_pending (Transport.tick_avail_ne_nil hpending)))

/-! ## What a pass uses up (R142, R144, R148 step 7) -/

/-- One round of REFILL: the buffer is full, nothing is pending, the read answers none, or a byte is
appended. -/
theorem refillUpTo_succ_cases (k : Nat) (s : State) :
    (s.rx.len = s.cfg.cap ∧ refillUpTo (k + 1) s = s) ∨
    ((readyNow s).1 = false ∧ refillUpTo (k + 1) s = (readyNow s).2) ∨
    ((readyNow s).1 = true ∧ refillUpTo (k + 1) s = (readOne (readyNow s).2).2) ∨
    ((readyNow s).1 = true ∧
      ∃ b, refillUpTo (k + 1) s = refillUpTo k (appendRx b (readOne (readyNow s).2).2)) := by
  rw [refillUpTo]
  split
  · next hfull => exact .inl ⟨hfull, rfl⟩
  · split
    · next hready =>
      split
      · next t ht => exact .inr (.inr (.inl ⟨hready, by rw [ht]⟩))
      · next b t ht => exact .inr (.inr (.inr ⟨hready, b, by rw [ht]⟩))
    · next hready => exact .inr (.inl ⟨by simpa using hready, rfl⟩)

theorem refillUpTo_spends (k : Nat) (s : State) : s.line.Spends 0 (refillUpTo k s).line := by
  induction k generalizing s with
  | zero => exact .refl _
  | succ k ih =>
    rcases refillUpTo_succ_cases k s with ⟨-, e⟩ | ⟨-, e⟩ | ⟨hr, e⟩ | ⟨hr, b, e⟩ <;> rw [e]
    · exact .refl _
    · exact s.line.tick_spends
    · exact (Transport.read_when_ready_spends hr).weaken
    · exact (Transport.read_when_ready_spends hr).weaken.trans (ih (appendRx b (readOne (readyNow s).2).2))

/-- REFILL uses up some of the plan, or ends on a full buffer or with nothing pending. -/
theorem refillUpTo_succ_spends (k : Nat) (s : State) :
    s.line.Spends 1 (refillUpTo (k + 1) s).line ∨
    (refillUpTo (k + 1) s).rx.len = (refillUpTo (k + 1) s).cfg.cap ∨
    (refillUpTo (k + 1) s).line.avail = [] := by
  rcases refillUpTo_succ_cases k s with ⟨hfull, e⟩ | ⟨hr, e⟩ | ⟨hr, e⟩ | ⟨hr, b, e⟩ <;> rw [e]
  · exact .inr (.inl hfull)
  · exact .inr (.inr (by simpa [readyNow, Transport.readyNow] using hr))
  · exact .inl (Transport.read_when_ready_spends hr)
  · exact .inl ((Transport.read_when_ready_spends hr).trans
      (refillUpTo_spends k (appendRx b (readOne (readyNow s).2).2)))

theorem overflowTest_spends (s : State) : s.line.Spends 0 (overflowTest s).2.line := by
  rcases overflowTest_cases s with ⟨-, e⟩ | ⟨-, e⟩ <;> rw [e]
  · exact s.line.tick_spends
  · exact .refl _

/-- A full buffer without overflow means that nothing is pending (R144). -/
theorem overflowTest_no_overflow {s : State} (h : (overflowTest s).1 = false)
    (hend : s.rx.len = s.cfg.cap ∨ s.line.avail = []) : (overflowTest s).2.line.avail = [] := by
  rcases overflowTest_cases s with ⟨-, e⟩ | ⟨hroom, e⟩ <;> rw [e] at h ⊢
  · simpa [readyNow, Transport.readyNow] using h
  · exact hend.resolve_left hroom

theorem passInput_spends (s : State) : s.line.Spends 0 (passInput s).line :=
  (refillUpTo_spends _ (enterDraining s)).trans (overflowTest_spends _)

theorem drainPass_line (s : State) : (drainPass s).line = (passInput s).line := by
  rcases drainPass_cases s with ⟨-, e⟩ | e <;> rw [e]
  · rfl
  · obtain ⟨-, -, -, -, -, hline, -⟩ := actOn_fields (decodeFrameBytes (passInput s).rxBytes) (passInput s)
    exact hline

/-- An overflow ends the exchange (R144). -/
theorem no_overflow_of_not_idle {s : State} (h : (drainPass s).xstate ≠ .idle) :
    (overflowTest (refill (enterDraining s))).1 = false := by
  unfold drainPass at h
  split at h
  · exact absurd rfl h
  · next t e => rw [e]

/-- A pass that does not end the exchange uses up some of the plan, or leaves nothing pending. -/
theorem drainPass_spends {s : State} (h : (drainPass s).xstate ≠ .idle) :
    s.line.Spends 1 (drainPass s).line ∨ (drainPass s).line.avail = [] := by
  have hno := no_overflow_of_not_idle h
  obtain ⟨k, hk⟩ : ∃ k, quota s.cfg.cap = k + 1 :=
    ⟨quota s.cfg.cap - 1, by have : 1 ≤ quota s.cfg.cap := le_max_left _ _; omega⟩
  have hrefill : refill (enterDraining s) = refillUpTo (k + 1) (enterDraining s) := by
    rw [← hk]; rfl
  rw [drainPass_line, passInput, hrefill]
  rw [hrefill] at hno
  rcases refillUpTo_succ_spends k (enterDraining s) with hs | hend
  · exact .inl (hs.trans (overflowTest_spends _))
  · exact .inr (overflowTest_no_overflow hno hend)

theorem moreAfterPass_spends (s : State) : s.line.Spends 0 (moreAfterPass s).2.line := by
  unfold moreAfterPass
  split
  · exact s.line.tick_spends
  · exact s.line.tick_spends.trans (s.line.tick.readyWithin_spends _)

/-- With nothing pending the loop goes on only by a chunk of the plan (R148 step 7e). -/
theorem moreAfterPass_spends_of_empty {s : State} (ha : s.line.avail = []) :
    s.line.Spends (moreAfterPass s).1.toNat (moreAfterPass s).2.line := by
  unfold moreAfterPass
  split
  · next hready =>
    have hr := Transport.readyNow_spends ha
    rwa [show s.line.readyNow.1 = true from hready] at hr
  · next hready =>
    have hempty : s.line.tick.avail = [] := by simpa [readyNow, Transport.readyNow] using hready
    have hw := s.line.tick_spends.trans (s.line.tick.readyWithin_spends_of_empty s.req.wait hempty)
    rwa [Nat.zero_add] at hw

/-- Each time the drain loop goes on it has used up some of the plan. -/
theorem loop_spends {s : State} (hpass : (drainPass s).xstate ≠ .idle)
    (hmore : (moreAfterPass (drainPass s)).1 = true) :
    s.line.Spends 1 (moreAfterPass (drainPass s)).2.line := by
  rcases drainPass_spends hpass with h | ha
  · exact h.trans (moreAfterPass_spends _)
  · have h0 : s.line.Spends 0 (drainPass s).line := drainPass_line s ▸ passInput_spends s
    have h1 := moreAfterPass_spends_of_empty ha
    rw [hmore] at h1
    exact h0.trans h1

/-! ## Operations that end -/

/-- The operation ends, on a line that goes quiet. -/
def EndsQuiet (o : Option State) : Prop := ∃ t, o = some t ∧ t.line.goesQuiet

theorem EndsQuiet.of_some {t : State} (h : t.line.goesQuiet) : EndsQuiet (some t) := ⟨t, rfl, h⟩

theorem EndsQuiet.map {o : Option State} {f : State → State} (h : EndsQuiet o)
    (hf : ∀ t, (f t).line = t.line) : EndsQuiet (o.map f) := by
  obtain ⟨t, rfl, ht⟩ := h
  exact .of_some (by rwa [hf])

theorem EndsQuiet.thenStep {o : Option State} {k : State → Option State} (h : EndsQuiet o)
    (hk : ∀ t, t.line.goesQuiet → EndsQuiet (k t)) : EndsQuiet (thenStep o k) := by
  obtain ⟨t, rfl, ht⟩ := h
  rcases thenStep_cases t k with ⟨-, e⟩ | ⟨-, e⟩ <;> rw [e]
  · exact hk t ht
  · exact .of_some ht

/-- The drain loop ends within as many passes as the plan has things to use up, and one (R157). -/
theorem drain_ends {n : Nat} {s : State} (hq : s.line.goesQuiet) (hn : s.line.stock < n) :
    EndsQuiet (drain n s) := by
  induction n generalizing s with
  | zero => omega
  | succ n ih =>
    have hpass : (drainPass s).line.goesQuiet := drainPass_line s ▸ (passInput_spends s hq).1
    have hafter := (moreAfterPass_spends (drainPass s) hpass).1
    rw [drain]
    split
    · exact .of_some hpass
    · next hrun =>
      split
      · next t e =>
        obtain ⟨hquiet, hstock⟩ : t.line.goesQuiet ∧ t.line.stock + 1 ≤ s.line.stock := by
          have h := loop_spends hrun (by rw [e]) hq
          rwa [e] at h
        exact ih hquiet (by omega)
      · next t e =>
        rw [e] at hafter
        exact .of_some hafter

theorem receive_ends {s : State} (hq : s.line.goesQuiet) : EndsQuiet (receive s) := by
  have hw : (readyWithin s).2.line.goesQuiet := (s.line.readyWithin_spends s.req.wait hq).1
  rcases receive_cases s with ⟨-, e⟩ | ⟨-, e⟩ <;> rw [e]
  · exact drain_ends hw (by rw [passBound]; omega)
  · exact .of_some hw

section

variable {s : State} (hq : s.line.goesQuiet)
include hq

/-- An exchange on a line that goes quiet ends (R148, R157). -/
theorem exchange_ends (id ins : Byte) (p : List Byte) (wait : Word40) :
    EndsQuiet (exchange id ins p wait s) := by
  have hsent : (sentState id ins p wait s).line.goesQuiet := (Transport.send_babble _ s.line).trans hq
  rcases exchange_cases id ins p wait s with ⟨-, e⟩ | ⟨-, e⟩ <;> rw [e]
  · exact receive_ends (s := enterSent _) hsent
  · exact .of_some hsent

theorem runXchg_ends (id ins : Byte) (p : List Byte) (wait : Word40) :
    EndsQuiet (runXchg id ins p wait s) := by
  rcases runXchg_cases id ins p wait s with ⟨-, e⟩ | ⟨-, e⟩ <;> rw [e]
  · exact (exchange_ends (s := setAttempt 1 s) hq id ins p wait).map fun _ => rfl
  · exact .of_some hq

theorem attempts_ends (id ins : Byte) (p : List Byte) (wait : Word40) (n : Nat) :
    EndsQuiet (attempts id ins p wait n s) := by
  induction n generalizing s with
  | zero => exact .of_some hq
  | succ n ih =>
    obtain ⟨t, e, ht⟩ := exchange_ends (s := setAttempt (s.policy.attempt + 1) s) hq id ins p wait
    simp only [attempts, e]
    split
    · exact .of_some ht
    · split
      · exact .of_some ht
      · exact ih ht

theorem runXchgr_ends (id ins : Byte) (p : List Byte) (mult iters : Byte) :
    EndsQuiet (runXchgr id ins p mult iters s) := by
  rcases runXchgr_cases id ins p mult iters s with ⟨-, e⟩ | ⟨-, e⟩ <;> rw [e]
  · exact (attempts_ends (s := startPolicy iters s) hq id ins p _ _).map fun _ => rfl
  · exact .of_some hq

/-! ## Calls of the Device Operation Layer -/

theorem issueCall_ends (f : Form) (id code : Byte) (p : List Byte) (m n : Byte) :
    EndsQuiet (issueCall f id code p m n s) := by
  cases f with
  | retried => exact runXchgr_ends hq id code p m n
  | single => exact runXchg_ends hq id code p _

theorem plainCall_ends (f : Form) (id code : Byte) (p : List Byte) (m n : Byte) :
    EndsQuiet (plainCall f id code p m n s) :=
  (issueCall_ends hq f id code p m n).map fun _ => rfl

theorem readCall_ends (f : Form) (id : Byte) (addr len : Word16) (value : List Byte → Value)
    (m n : Byte) : EndsQuiet (readCall f id addr len value m n s) :=
  (issueCall_ends hq f id _ _ m n).map fun t => by
    rcases finishRead_cases len value t with ⟨-, e⟩ | ⟨-, -, e⟩ | ⟨-, -, e⟩ <;> rw [e]

theorem setDelayCall_ends (f : Form) (id : Byte) (us : Nat) (m n : Byte) :
    EndsQuiet (setDelayCall f id us m n s) := by
  unfold setDelayCall
  split
  · exact plainCall_ends hq f id _ _ m n
  · exact .of_some hq

/-! ## CONFIGURE (45_device_ops R211) -/

theorem setbaudCommand_goesQuiet (baud : Word32) : (setbaudCommand baud s).line.goesQuiet := by
  unfold setbaudCommand
  split <;> exact hq

theorem sweep_ends (f : Form) (id : Byte) (cs : List Word32) : EndsQuiet (sweep f id cs s) := by
  induction cs generalizing s with
  | nil => exact .of_some hq
  | cons c cs ih =>
    obtain ⟨t, e, ht⟩ : EndsQuiet (pingCall f id 0 0 (setbaudCommand c s)) :=
      plainCall_ends (setbaudCommand_goesQuiet hq c) f id _ _ 0 0
    rw [sweep_cons e]
    split
    · exact .of_some ht
    · exact ih ht

theorem configureSteps_ends (f : Form) (id : Byte) (baud : Word32) (us : Nat) (opmode : Byte) :
    EndsQuiet (configureSteps f id baud us opmode s) :=
  .thenStep (plainCall_ends hq f id _ _ 0 0) fun _ ht =>
  .thenStep (plainCall_ends ht f id _ _ 0 0) fun _ hu =>
  .thenStep (setDelayCall_ends (setbaudCommand_goesQuiet hu baud) f id us 0 0) fun _ hv =>
  plainCall_ends hv f id _ _ 0 0

theorem configureCall_ends (f : Form) (id : Byte) (baud : Word32) (us : Nat) (opmode : Byte) :
    EndsQuiet (configureCall f id baud us opmode s) := by
  obtain ⟨t, e, ht⟩ := sweep_ends (s := reply .noResponse .none s) hq f id s.params.baudCandidates
  simp only [configureCall, e]
  split
  · exact configureSteps_ends ht f id baud us opmode
  · exact .of_some (setbaudCommand_goesQuiet ht s.cfg.baud)

end

/-! ## All instructions -/

/-- An operation that ends on every line that goes quiet answers a next state, or the line is endless. -/
theorem orNeverEnds_of_ends {o : Option State} {s : State} (h : s.line.goesQuiet → EndsQuiet o) :
    (∃ t, orNeverEnds o = .next t) ∨
    (orNeverEnds o = .fault .exchangeNeverEnds ∧ s.line.babble ≠ []) := by
  cases o with
  | some t => exact .inl ⟨t, rfl⟩
  | none =>
    refine .inr ⟨rfl, fun hq => ?_⟩
    obtain ⟨t, ht, -⟩ := h hq
    cases ht

end Sys2Proof.Machine

open Sys2Proof.Machine in
/-- Settles O50: an instruction that runs no exchange always answers; the others end on every line that goes
quiet, since each turn of the drain loop uses up some of the plan. -/
theorem onlyAnEndlessLineStopsTheMachine : Obligations.OnlyAnEndlessLineStopsTheMachine := by
  intro i s
  cases i with
  | xchg id ins p wait => exact orNeverEnds_of_ends fun hq => runXchg_ends hq id ins p wait
  | xchgr id ins p m n => exact orNeverEnds_of_ends fun hq => runXchgr_ends hq id ins p m n
  | ping f id m n | write f id _ _ m n | regwrite f id _ _ m n | action f id m n | freset f id _ m n
  | reboot f id m n | setTorqueEnable f id _ m n | setOperatingMode f id _ m n
  | setBaudRate f id _ m n => exact orNeverEnds_of_ends fun hq => plainCall_ends hq f id _ _ m n
  | read f id _ _ m n | getTorqueEnable f id m n | getPosition f id m n | getVelocity f id m n
  | getCurrent f id m n | getTemperature f id m n | getDelayTime f id m n | getDriveMode f id m n
  | getOperatingMode f id m n | getBaudRate f id m n =>
    exact orNeverEnds_of_ends fun hq => readCall_ends hq f id _ _ _ m n
  | setDelayTime f id us m n => exact orNeverEnds_of_ends fun hq => setDelayCall_ends hq f id us m n
  | configure f id baud us opmode =>
    exact orNeverEnds_of_ends fun hq => configureCall_ends hq f id baud us opmode
  | _ => exact .inl ⟨_, rfl⟩
end

section
/-!
# Operands and their bytes (30_encoding R73)

Each reader of an operand is the exact inverse of its writer: it answers a value and the bytes left over
exactly when the string is the value's bytes followed by those. Every reader of R74's commands is built of these.
-/

namespace Sys2Proof

/-! ## Little-endian words (40_checksum_bytepair R94 to R97) -/

theorem le16_joinU16 (b0 b1 : Byte) : le16 (joinU16 b0 b1) = [b0, b1] := by
  simp only [le16, lo8, hi8, joinU16, List.cons.injEq, and_true]
  refine ⟨?_, ?_⟩ <;> ext i hi <;>
    simp only [BitVec.getElem_setWidth, BitVec.getLsbD_or, BitVec.getLsbD_setWidth,
      BitVec.getLsbD_shiftLeft, BitVec.getLsbD_ushiftRight] <;> grind

theorem le32_joinU32 (b0 b1 b2 b3 : Byte) : le32 (joinU32 b0 b1 b2 b3) = [b0, b1, b2, b3] := by
  simp only [le32, joinU32, List.cons.injEq, and_true]
  refine ⟨?_, ?_, ?_, ?_⟩ <;> ext i hi <;>
    simp only [BitVec.getElem_setWidth, BitVec.getLsbD_or, BitVec.getLsbD_setWidth,
      BitVec.getLsbD_shiftLeft, BitVec.getLsbD_ushiftRight] <;> grind

theorem le40_joinU40 (b0 b1 b2 b3 b4 : Byte) :
    le40 (joinU40 b0 b1 b2 b3 b4) = [b0, b1, b2, b3, b4] := by
  simp only [le40, joinU40, List.cons.injEq, and_true]
  refine ⟨?_, ?_, ?_, ?_, ?_⟩ <;> ext i hi <;>
    simp only [BitVec.getElem_setWidth, BitVec.getLsbD_or, BitVec.getLsbD_setWidth,
      BitVec.getLsbD_shiftLeft, BitVec.getLsbD_ushiftRight] <;> grind

theorem joinU32_le32 (v : Word32) :
    joinU32 (v.setWidth 8) ((v >>> 8).setWidth 8) ((v >>> 16).setWidth 8) ((v >>> 24).setWidth 8) = v := by
  ext i hi
  simp only [joinU32, BitVec.getElem_or, BitVec.getElem_setWidth, BitVec.getElem_shiftLeft,
    BitVec.getLsbD_setWidth, BitVec.getLsbD_ushiftRight]
  grind

theorem joinU40_le40 (v : Word40) :
    joinU40 (v.setWidth 8) ((v >>> 8).setWidth 8) ((v >>> 16).setWidth 8) ((v >>> 24).setWidth 8)
      ((v >>> 32).setWidth 8) = v := by
  ext i hi
  simp only [joinU40, BitVec.getElem_or, BitVec.getElem_setWidth, BitVec.getElem_shiftLeft,
    BitVec.getLsbD_setWidth, BitVec.getLsbD_ushiftRight]
  grind

/-! ## Readers -/

theorem takeU16_eq_some {bs r : List Byte} {v : Word16} :
    takeU16 bs = some (v, r) ↔ bs = le16 v ++ r := by
  constructor
  · intro h
    unfold takeU16 at h
    split at h
    · cases h; rw [le16_joinU16]; rfl
    · cases h
  · rintro rfl
    exact congrArg (fun x => some (x, r)) (joinU16_le16 v)

theorem takeU32_eq_some {bs r : List Byte} {v : Word32} :
    takeU32 bs = some (v, r) ↔ bs = le32 v ++ r := by
  constructor
  · intro h
    unfold takeU32 at h
    split at h
    · cases h; rw [le32_joinU32]; rfl
    · cases h
  · rintro rfl
    exact congrArg (fun x => some (x, r)) (joinU32_le32 v)

theorem takeU40_eq_some {bs r : List Byte} {v : Word40} :
    takeU40 bs = some (v, r) ↔ bs = le40 v ++ r := by
  constructor
  · intro h
    unfold takeU40 at h
    split at h
    · cases h; rw [le40_joinU40]; rfl
    · cases h
  · rintro rfl
    exact congrArg (fun x => some (x, r)) (joinU40_le40 v)

/-- The length that stands before a list is a u16, so only a list that fits one is read back. -/
theorem takeBlob_eq_some {bs l r : List Byte} :
    takeBlob bs = some (l, r) ↔ listFits l = true ∧ bs = blob l ++ r := by
  constructor
  · intro h
    unfold takeBlob at h
    split at h
    · cases h
    · next n rest hn =>
      split at h
      · cases h
      · next hlen =>
        cases h
        have hl : (rest.take n.toNat).length = n.toNat := by rw [List.length_take]; omega
        have hfits : (rest.take n.toNat).length ≤ 0xFFFF := by omega
        refine ⟨decide_eq_true hfits, ?_⟩
        rw [takeU16_eq_some.mp hn, Machine.blob_of_fits hfits, hl, natLe16, BitVec.ofNat_toNat,
          BitVec.setWidth_eq, List.append_assoc, List.take_append_drop]
  · rintro ⟨hfits, rfl⟩
    have hl : l.length ≤ 0xFFFF := of_decide_eq_true hfits
    have hn : (BitVec.ofNat 16 l.length).toNat = l.length := by
      rw [BitVec.toNat_ofNat, Nat.mod_eq_of_lt (by omega)]
    rw [takeBlob, takeU16_eq_some.mpr (by rw [Machine.blob_of_fits hl, natLe16, List.append_assoc])]
    simp [hn]

theorem takeRequest_eq_some {bs p r : List Byte} {id ins : Byte} :
    takeRequest bs = some ((id, ins, p), r) ↔ listFits p = true ∧ bs = id :: ins :: (blob p ++ r) := by
  constructor
  · intro h
    unfold takeRequest at h
    split at h
    · next rest =>
      obtain ⟨⟨l, r'⟩, hx, he⟩ := Option.map_eq_some_iff.mp h
      cases he
      obtain ⟨hfits, rfl⟩ := takeBlob_eq_some.mp hx
      exact ⟨hfits, rfl⟩
    · cases h
  · rintro ⟨hfits, rfl⟩
    rw [takeRequest, takeBlob_eq_some.mpr ⟨hfits, rfl⟩, Option.map_some]

/-! ## The commands' operands (R74) -/

theorem blobCommand_eq_some {mk : List Byte → Instr} {bs r : List Byte} {i : Instr} :
    blobCommand mk bs = some (i, r) ↔ ∃ l, i = mk l ∧ listFits l = true ∧ bs = blob l ++ r := by
  simp only [blobCommand, Option.map_eq_some_iff, Prod.exists, takeBlob_eq_some, Prod.mk.injEq]
  constructor
  · rintro ⟨l, _, h, rfl, rfl⟩
    exact ⟨l, rfl, h⟩
  · rintro ⟨l, rfl, h⟩
    exact ⟨l, r, h, rfl, rfl⟩

theorem takeXchg_eq_some {bs r : List Byte} {i : Instr} :
    takeXchg bs = some (i, r) ↔ ∃ id ins p wait, i = .xchg id ins p wait ∧ listFits p = true ∧
      bs = id :: ins :: (blob p ++ (le40 wait ++ r)) := by
  constructor
  · intro h
    unfold takeXchg at h
    split at h
    · cases h
    · next id ins p rest hreq =>
      obtain ⟨⟨wait, r'⟩, hw, he⟩ := Option.map_eq_some_iff.mp h
      cases he
      obtain ⟨hp, rfl⟩ := takeRequest_eq_some.mp hreq
      rw [takeU40_eq_some.mp hw]
      exact ⟨id, ins, p, wait, rfl, hp, rfl⟩
  · rintro ⟨id, ins, p, wait, rfl, h⟩
    simp only [takeXchg, takeRequest_eq_some.mpr h, takeU40_eq_some.mpr rfl, Option.map_some]

theorem takeXchgr_eq_some {bs r : List Byte} {i : Instr} :
    takeXchgr bs = some (i, r) ↔ ∃ id ins p mult iters, i = .xchgr id ins p mult iters ∧
      listFits p = true ∧ bs = id :: ins :: (blob p ++ mult :: iters :: r) := by
  constructor
  · intro h
    unfold takeXchgr at h
    split at h
    · next id ins p mult iters rest hreq =>
      cases h
      exact ⟨id, ins, p, mult, iters, rfl, takeRequest_eq_some.mp hreq⟩
    · cases h
  · rintro ⟨id, ins, p, mult, iters, rfl, h⟩
    simp only [takeXchgr, takeRequest_eq_some.mpr h]

theorem takeInit_eq_some {bs r : List Byte} {i : Instr} :
    takeInit bs = some (i, r) ↔ ∃ cap waitUs baud bits stop parity,
      i = .init cap waitUs baud bits stop parity ∧
      bs = le16 cap ++ (le32 waitUs ++ (le32 baud ++ bits :: stop :: parity :: r)) := by
  constructor
  · intro h
    unfold takeInit at h
    split at h
    · cases h
    · next cap _ hcap =>
      split at h
      · cases h
      · next waitUs _ hwait =>
        split at h
        · next baud bits stop parity _ hbaud =>
          cases h
          rw [takeU16_eq_some.mp hcap, takeU32_eq_some.mp hwait, takeU32_eq_some.mp hbaud]
          exact ⟨cap, waitUs, baud, bits, stop, parity, rfl, rfl⟩
        · cases h
  · rintro ⟨cap, waitUs, baud, bits, stop, parity, rfl, rfl⟩
    simp only [takeInit, takeU16_eq_some.mpr rfl, takeU32_eq_some.mpr rfl]

theorem eq_ofNat_of_toNat_eq {code : Byte} {n : Nat} (h : code.toNat = n) : code = BitVec.ofNat 8 n := by
  rw [← h, BitVec.ofNat_toNat, BitVec.setWidth_eq]

/-- What the operands after a command code read as: exactly the well-formed commands whose words these are,
with the bytes after them left over. -/
theorem takeOperands_eq_some {code : Byte} {bs r : List Byte} {i : Instr} :
    takeOperands code bs = some (some (i, r)) ↔
      i.wellFormed = true ∧ (encode i).map (· ++ r) = some (code :: bs) := by
  constructor
  · intro h
    unfold takeOperands at h
    split at h
    -- one byte list
    case h_1 hc | h_4 hc | h_5 hc | h_6 hc | h_7 hc | h_8 hc | h_10 hc | h_11 hc | h_12 hc =>
      obtain rfl := eq_ofNat_of_toNat_eq hc
      obtain ⟨l, rfl, hl, rfl⟩ := blobCommand_eq_some.mp (Option.some.inj h)
      exact ⟨hl, rfl⟩
    -- LE16
    case h_2 hc =>
      obtain rfl := eq_ofNat_of_toNat_eq hc
      obtain ⟨⟨v, r'⟩, hv, he⟩ := Option.map_eq_some_iff.mp (Option.some.inj h)
      cases he
      rw [takeU16_eq_some.mp hv]
      exact ⟨rfl, rfl⟩
    -- LE32, SETBAUD
    case h_3 hc | h_16 hc =>
      obtain rfl := eq_ofNat_of_toNat_eq hc
      obtain ⟨⟨v, r'⟩, hv, he⟩ := Option.map_eq_some_iff.mp (Option.some.inj h)
      cases he
      rw [takeU32_eq_some.mp hv]
      exact ⟨rfl, rfl⟩
    -- ENCODE
    case h_9 hc =>
      obtain rfl := eq_ofNat_of_toNat_eq hc
      obtain ⟨⟨⟨id, ins, p⟩, r'⟩, hreq, he⟩ := Option.map_eq_some_iff.mp (Option.some.inj h)
      cases he
      obtain ⟨hp, rfl⟩ := takeRequest_eq_some.mp hreq
      exact ⟨hp, rfl⟩
    -- XCHG
    case h_13 hc =>
      obtain rfl := eq_ofNat_of_toNat_eq hc
      obtain ⟨id, ins, p, wait, rfl, hp, rfl⟩ := takeXchg_eq_some.mp (Option.some.inj h)
      exact ⟨hp, by simp [encode]⟩
    -- XCHGR
    case h_14 hc =>
      obtain rfl := eq_ofNat_of_toNat_eq hc
      obtain ⟨id, ins, p, mult, iters, rfl, hp, rfl⟩ := takeXchgr_eq_some.mp (Option.some.inj h)
      exact ⟨hp, by simp [encode]⟩
    -- INIT
    case h_15 hc =>
      obtain rfl := eq_ofNat_of_toNat_eq hc
      obtain ⟨cap, waitUs, baud, bits, stop, parity, rfl, rfl⟩ :=
        takeInit_eq_some.mp (Option.some.inj h)
      exact ⟨rfl, by simp [encode]⟩
    -- no command's code
    case h_17 => cases h
  · rintro ⟨hw, h⟩
    obtain ⟨w, he, hcat⟩ := Option.map_eq_some_iff.mp h
    cases i with
    | crc16 l | u16 l | u32 l | s16 l | s32 l | stuff l | hdrfind l | destuff l | decode l =>
      cases he; cases hcat
      exact congrArg some (blobCommand_eq_some.mpr ⟨l, rfl, hw, rfl⟩)
    | le16 v =>
      cases he; cases hcat
      exact congrArg some (Option.map_eq_some_iff.mpr ⟨(v, r), takeU16_eq_some.mpr rfl, rfl⟩)
    | le32 v | setbaud v =>
      cases he; cases hcat
      exact congrArg some (Option.map_eq_some_iff.mpr ⟨(v, r), takeU32_eq_some.mpr rfl, rfl⟩)
    | encode id ins p =>
      cases he; cases hcat
      exact congrArg some (Option.map_eq_some_iff.mpr
        ⟨((id, ins, p), r), takeRequest_eq_some.mpr ⟨hw, rfl⟩, rfl⟩)
    | xchg id ins p wait =>
      cases he; cases hcat
      exact congrArg some (takeXchg_eq_some.mpr ⟨id, ins, p, wait, rfl, hw, by simp⟩)
    | xchgr id ins p mult iters =>
      cases he; cases hcat
      exact congrArg some (takeXchgr_eq_some.mpr ⟨id, ins, p, mult, iters, rfl, hw, by simp⟩)
    | init cap waitUs baud bits stop parity =>
      cases he; cases hcat
      exact congrArg some (takeInit_eq_some.mpr ⟨cap, waitUs, baud, bits, stop, parity, rfl, by simp⟩)
    | _ => cases he

/-! ## Whole commands (R73, R80) -/

theorem encode_ne_nil (i : Instr) : encode i ≠ some [] := by
  cases i <;> nofun

theorem decodePrefix_eq_ok {bs r : List Byte} {i : Instr} :
    decodePrefix bs = .ok i r ↔ i.wellFormed = true ∧ (encode i).map (· ++ r) = some bs := by
  cases bs with
  | nil =>
    refine ⟨nofun, fun ⟨_, h⟩ => ?_⟩
    obtain ⟨w, hw, hcat⟩ := Option.map_eq_some_iff.mp h
    rw [(List.append_eq_nil_iff.mp hcat).1] at hw
    exact absurd hw (encode_ne_nil i)
  | cons code bs =>
    rw [← takeOperands_eq_some, decodePrefix]
    split <;> simp_all

/-- The decoder of the command port is the inverse of the encoder, on the well-formed commands. -/
theorem decode_eq_ok {bs : List Byte} {i : Instr} :
    decode bs = .ok i ↔ encode i = some bs ∧ i.wellFormed = true := by
  have hprefix : decode bs = .ok i ↔ decodePrefix bs = .ok i [] := by
    unfold decode
    split <;> simp_all
  rw [hprefix, decodePrefix_eq_ok, and_comm]
  simp

end Sys2Proof

open Sys2Proof in
/-- Settles O7: a well-formed command's words are read back operand by operand, with nothing left over. -/
theorem commandWordsRoundTrip : Obligations.CommandWordsRoundTrip :=
  fun _ _ hw h => decode_eq_ok.mpr ⟨h, hw⟩

open Sys2Proof in
/-- Settles O8, the converse: each reader answers only for the words of what it answers. -/
theorem decodedCommandsAreTheirWords : Obligations.DecodedCommandsAreTheirWords :=
  fun _ _ h => decode_eq_ok.mp h
end

section
/-!
# Wire frames (30_encoding R60, R63, R68)
-/

namespace Sys2Proof

open Config

/-! ## Every wire instruction's payload fits its frame (R62) -/

theorem stuffFrom_length_le (b2 b1 : Byte) (p : List Byte) :
    (stuffFrom b2 b1 p).length ≤ 2 * p.length := by
  induction p generalizing b2 b1 with
  | nil => simp [stuffFrom]
  | cons b bs ih =>
    have := ih b1 b
    unfold stuffFrom
    split <;> simp only [List.length_cons] <;> omega

theorem payloadFits_of_short {p : List Byte} (h : p.length ≤ 4) : payloadFits p = true := by
  have : (stuff p).length ≤ 2 * p.length := stuffFrom_length_le 0 0 p
  exact decide_eq_true (by omega)

theorem payloadFits_of_wellFormed {c : WireCodes} {i : Instr} {w : WireParts}
    (hi : i.wellFormed = true) (hw : wireParts c i = some w) : payloadFits w.payload = true := by
  cases i with
  | wWrite | wRegWrite | wStatus => cases hw; exact hi
  | wPing | wRead | wAction | wFactoryReset | wReboot =>
    cases hw; exact payloadFits_of_short (by simp [readPayload])
  | _ => cases hw

/-! ## The instruction of a code and a payload (R68, R189 to R195) -/

theorem writePayload_joinU16 (a0 a1 : Byte) (data : List Byte) :
    writePayload (joinU16 a0 a1) data = a0 :: a1 :: data := by
  rw [writePayload, le16_joinU16]; rfl

theorem readPayload_joinU16 (a0 a1 l0 l1 : Byte) :
    readPayload (joinU16 a0 a1) (joinU16 l0 l1) = [a0, a1, l0, l1] := by
  rw [readPayload, le16_joinU16, le16_joinU16]; rfl

/-- Whatever the codes are, what is read has this code and this payload. -/
theorem wireParts_of_wireInstr {c : WireCodes} {id code : Byte} {p : List Byte} {i : Instr}
    (h : wireInstr c id code p = .ok i) : wireParts c i = some ⟨id, code, p⟩ := by
  unfold wireInstr at h
  -- the branches that answer, each for its own code and layout
  repeat' split at h
  all_goals cases h
  all_goals subst code
  all_goals simp only [wireParts, readPayload_joinU16, writePayload_joinU16]

/-- With eight different codes an instruction's own code and payload are read as it (log 31). -/
theorem wireInstr_of_wireParts {c : WireCodes} (hc : c.toList.Nodup) {i : Instr} {w : WireParts}
    (hw : wireParts c i = some w) : wireInstr c w.id w.code w.payload = .ok i := by
  -- reversed, so that each inequality reads as the decoder's test of a later code against an earlier one
  replace hc := List.nodup_reverse.mpr hc
  simp only [WireCodes.toList, List.reverse_cons, List.reverse_nil, List.nil_append,
    List.cons_append, List.nodup_cons, List.mem_cons, not_or] at hc
  cases i with
  | wPing | wRead | wWrite | wRegWrite | wAction | wFactoryReset | wReboot | wStatus =>
    cases hw
    unfold wireInstr
    simp [hc, readPayload, writePayload, le16, joinU16_le16]
  | _ => cases hw

/-! ## Whole frames -/

theorem decodeWire_frameOf (c : WireCodes) (id code : Byte) {p : List Byte}
    (hp : payloadFits p = true) : decodeWire c (frameOf id code p) = wireInstr c id code p := by
  rw [decodeWire, (frameOf_decodesWhole id code (of_decide_eq_true hp)).whole]
  exact if_pos rfl

theorem frameOf_of_decodeWire {c : WireCodes} {bs : List Byte} {i : Instr}
    (h : decodeWire c bs = .ok i) :
    ∃ id code p, wireInstr c id code p = .ok i ∧ frameOf id code p = bs := by
  unfold decodeWire at h
  split at h
  case h_5 f _ =>
    split at h
    · next hf => exact ⟨f.id, f.instr, f.content, h, hf⟩
    · cases h
  all_goals cases h

theorem decodeWire_of_encodeWire {c : WireCodes} (hc : c.toList.Nodup) {i : Instr} {bs : List Byte}
    (hi : i.wellFormed = true) (h : encodeWire c i = some bs) : decodeWire c bs = .ok i := by
  obtain ⟨w, hw, rfl⟩ := Option.map_eq_some_iff.mp h
  rw [decodeWire_frameOf c w.id w.code (payloadFits_of_wellFormed hi hw)]
  exact wireInstr_of_wireParts hc hw

theorem encodeWire_of_decodeWire {c : WireCodes} {bs : List Byte} {i : Instr}
    (h : decodeWire c bs = .ok i) : encodeWire c i = some bs := by
  obtain ⟨id, code, p, hi, rfl⟩ := frameOf_of_decodeWire h
  rw [encodeWire, wireParts_of_wireInstr hi, Option.map_some]

end Sys2Proof

open Sys2Proof in
/-- Settles O9: DECODE finds the frame's fields, and the code tells the instruction since the eight differ. -/
theorem wireFramesRoundTrip : Obligations.WireFramesRoundTrip :=
  fun _ _ _ hc hi h => decodeWire_of_encodeWire hc hi h

open Sys2Proof in
/-- Settles O10: the decoder compares the frame of what it read with the bytes it was given. -/
theorem decodedFramesAreTheirEncoding : Obligations.DecodedFramesAreTheirEncoding :=
  fun _ _ _ h => encodeWire_of_decodeWire h
end

section
/-!
# Wire instructions in the machine (30_encoding R68; log 9)
-/

namespace Sys2Proof.Machine

/-! ## The frame in the send buffer (41_frame_encode R108) -/

theorem encodeInto_txBytes (id ins : Byte) (p : List Byte) {s : State} (h : Memory.wf s.tx.mem) :
    (encodeInto id ins p s).txBytes = frameOf id ins p :=
  Memory.readBytes_writeBytes h 0 _

theorem encodeInto_txByte_of_ge (id ins : Byte) (p : List Byte) (s : State) {a : Nat}
    (ha : (frameOf id ins p).length ≤ a) : (encodeInto id ins p s).txByte a = s.txByte a :=
  Memory.read_writeBytes_other s.tx.mem _ (.inr (by omega))

theorem encodeCommand_of_fits (id ins : Byte) {p : List Byte} {s : State}
    (h : frameFits s.params.txCap p = true) : encodeCommand id ins p s =
      { s with tx := (encodeInto id ins p s).tx, result := ⟨.success, blob (frameOf id ins p)⟩ } :=
  if_pos h

theorem encodeCommand_of_not_fits (id ins : Byte) {p : List Byte} {s : State}
    (h : frameFits s.params.txCap p = false) : encodeCommand id ins p s = refuse s :=
  if_neg (by simp [h])

/-- The seven instructions are ENCODE with their code and payload; a status frame is the device's. -/
theorem exec_of_wireParts {s : State} {i : Instr} {w : WireParts}
    (hw : wireParts s.params.codes i = some w) (hi : i.isStatus = false) :
    exec i s = .next (ifIdle (encodeCommand w.id w.code w.payload) s) := by
  cases i with
  | wPing | wRead | wWrite | wRegWrite | wAction | wFactoryReset | wReboot => cases hw; rfl
  | wStatus => cases hi
  | _ => cases hw

theorem execWStatus_of_not_fits {id err : Byte} {params : List Byte} (s : State)
    (h : payloadFits (err :: params) = false) :
    execWStatus id err params s = .next (refuse s) := by
  rw [execWStatus, deliverStatus, if_neg (by simp [h])]

end Sys2Proof.Machine

open Sys2Proof Sys2Proof.Machine in
/-- Settles O28: each of the seven is ENCODE with its code and payload. -/
theorem wireInstructionsBuildTheirFrame : Obligations.WireInstructionsBuildTheirFrame := by
  intro s i w hw hi hwf hidle
  rw [exec_of_wireParts hw hi, ifIdle, if_pos hidle]
  refine ⟨fun hfits => ⟨_, rfl, ?_⟩, fun hfits => by rw [encodeCommand_of_not_fits _ _ hfits]; rfl⟩
  have hbytes := encodeInto_txBytes w.id w.code w.payload hwf
  rw [encodeCommand_of_fits _ _ hfits]
  refine ⟨rfl, hbytes, ?_, rfl, fun a ha => encodeInto_txByte_of_ge _ _ _ s ha⟩
  exact (congrArg (·[7]?) hbytes).trans (Laws.Words.frameOf_code _ _ _)

open Sys2Proof Sys2Proof.Machine in
/-- Settles O29: the frame joins the pending bytes, and it decodes as the frame of the same instruction. -/
theorem statusFramesJoinThePendingInput : Obligations.StatusFramesJoinThePendingInput := by
  intro s id err params
  refine ⟨fun hfits => ?_, execWStatus_of_not_fits s⟩
  have hdecode : decodeWire Config.defaultCodes (frameOf id 0x55 (err :: params)) =
      .ok (.wStatus id err params) := decodeWire_of_encodeWire (by decide) hfits rfl
  exact ⟨_, execWStatus_of_fits s hfits, rfl, Laws.Words.frameOf_code _ _ _, hdecode⟩
end

section
/-!
# What the host's next request does (10_state R10, 30_encoding R73)
-/

namespace Sys2Proof.Machine

variable {s : State} {rest : List Request}

theorem step_of_no_request (h : s.port = []) : step s = .next s := by
  rw [step, h]

theorem step_of_access {a : Accessor} (h : s.port = .access a :: rest) :
    step s = execAccess a { s with port := rest } := by
  rw [step, h]

/-- A request that names an instruction runs it. -/
theorem step_of_named {r : Request} {i : Instr} (h : s.port = r :: rest)
    (hr : named s.params.codes r = some i) : step s = exec i { s with port := rest } := by
  cases r with
  | access a => cases hr
  | _ => simp only [step, h, hr]

/-- A request that is no accessor and names none is refused. -/
theorem step_of_unnamed {r : Request} (h : s.port = r :: rest) (ha : ∀ a, r ≠ .access a)
    (hr : named s.params.codes r = none) :
    step s = .next { s with port := rest, result := ⟨.refused, []⟩ } := by
  cases r with
  | access a => exact absurd rfl (ha a)
  | _ => simp only [step, h, hr]; rfl

theorem step_of_undecoded {bytes : List Byte} {e : DecodeError} (h : s.port = .command bytes :: rest)
    (he : decode bytes = .error e) :
    step s = .next { s with port := rest, result := ⟨.refused, []⟩ } :=
  step_of_unnamed h nofun (by simp only [named, he])

end Sys2Proof.Machine

namespace Sys2Proof

/-- The sixteen codes of R74, as the reader of operands tells them. -/
theorem takeOperands_of_illegal {code : Byte} (bs : List Byte)
    (h : code ∉ ([0x01, 0x02, 0x03, 0x04, 0x05, 0x06, 0x07, 0x08, 0x09, 0x0A, 0x0B, 0x0C, 0x10, 0x11,
      0x20, 0x21] : List Byte)) : takeOperands code bs = none := by
  unfold takeOperands
  split
  case h_17 => rfl
  all_goals
    next hc => exact absurd (eq_ofNat_of_toNat_eq hc ▸ by decide) h

theorem decode_of_illegal {code : Byte} {bs : List Byte} (h : takeOperands code bs = none) :
    decode (code :: bs) = .error (.illegalCommand code) := by
  rw [decode, decodePrefix, h]

end Sys2Proof

open Sys2Proof Sys2Proof.Machine in
/-- Settles O4: one clause per kind of request, by what the request names. -/
theorem stepRunsTheNamedInstruction : Obligations.StepRunsTheNamedInstruction := by
  intro s rest
  refine ⟨fun bytes i h hi => ?_, fun bytes e h he => step_of_undecoded h he, fun bytes i h hi => ?_,
    fun bytes e h he => ?_, fun i h hi => ?_, fun i h hi => ?_, fun a h => step_of_access h,
    step_of_no_request⟩
  · exact step_of_named h (by simp only [named, hi])
  · exact step_of_named h (by simp only [named, hi])
  · exact step_of_unnamed h nofun (by simp only [named, he])
  · exact step_of_named h (by simp only [named, hi, if_true])
  · exact step_of_unnamed h nofun (by simp [named, hi])

open Sys2Proof Sys2Proof.Machine in
/-- Settles O5: the decoder rejects the code before it looks at what follows. -/
theorem illegalCommandCodesAreRefused : Obligations.IllegalCommandCodesAreRefused :=
  fun _ _ operands _ hcode h =>
    step_of_undecoded h (decode_of_illegal (takeOperands_of_illegal operands hcode))

open Sys2Proof in
/-- Settles O6: six by running the decoder, the frame as the encoding of its instruction. -/
theorem specExampleWordsDecode : Obligations.SpecExampleWordsDecode :=
  ⟨rfl, rfl, rfl, rfl, rfl, rfl,
    decodeWire_of_encodeWire (i := .wRead 0x01 0x0084 4) (by decide) rfl (by decide +kernel)⟩
end

section
/-!
# What a call's exchanges leave (43_session_exchange R148, 44_retry_policy R174)

`Exchanged k s t`: between `s` and `t` the block ran `k` exchanges of one request. One exchange is `Exchanged 1`, and
the retry loop composes them.
-/

namespace Sys2Proof.Machine

/-! ## The outcome of an exchange that ended (60_exceptions R220) -/

/-- Of the arms of step 7d those that end the exchange raise one of the seven outcomes. -/
theorem actOn_outcome {r : DecodeResult} {s : State} (hm : s.params.malformed.isExchange = true)
    (hrun : s.xstate ≠ .idle) (h : (actOn r s).xstate = .idle) :
    (actOn r s).resp.outcome.isExchange = true := by
  cases r with
  | headerNotFound k => exact absurd ((compact_xstate s k).symm.trans h) hrun
  | incomplete k => exact absurd ((compact_xstate s k).symm.trans h) hrun
  | malformed k => exact hm
  | checksumMismatch f => rfl
  | success f => exact classify_isExchange hm _ _

theorem drainPass_outcome {s : State} (h : Midway s) (hidle : (drainPass s).xstate = .idle) :
    (drainPass s).resp.outcome.isExchange = true := by
  rcases drainPass_cases s with ⟨-, e⟩ | e
  · rw [e]; rfl
  · rw [e] at hidle ⊢
    have hrun : (passInput s).xstate ≠ .idle := by rw [(passInput_receives s).eq]; nofun
    exact actOn_outcome h.passInput.malformed hrun hidle

theorem endQuiet_outcome (s : State) : (endQuiet s).resp.outcome.isExchange = true := by
  rw [endQuiet, raiseOutcome_resp, quietOutcome]
  split <;> rfl

theorem receive_outcome {s t : State} (h : Midway s) (ht : receive s = some t) :
    t.resp.outcome.isExchange = true := by
  have hw : Midway (readyWithin s).2 := h.congr rfl
  rcases receive_cases s with ⟨-, e⟩ | ⟨-, e⟩ <;> rw [e] at ht
  · obtain ⟨u, hu, ⟨hidle, rfl⟩ | ⟨-, -, rfl⟩⟩ := drain_induct (P := Midway)
      (fun u hu _ _ => hu.drainPass.moreAfterPass) ht hw
    · exact drainPass_outcome hu hidle
    · exact endQuiet_outcome _
  · cases ht
    exact endQuiet_outcome _

theorem exchange_outcome {id ins : Byte} {p : List Byte} {wait : Word40} {s t : State} (h : Inv s)
    (hp : s.takes p) (ht : exchange id ins p wait s = some t) : t.resp.outcome.isExchange = true := by
  rcases exchange_cases id ins p wait s with ⟨-, e⟩ | ⟨-, e⟩ <;> rw [e] at ht
  · exact receive_outcome ((h.sentState id ins wait hp).congr (t := enterSent _) rfl) ht
  · cases ht; rfl

/-! ## What exchanges do not touch -/

theorem ExchangeFrame.trans {n : Nat} {a b c : State} (h : ExchangeFrame n a b)
    (h' : ExchangeFrame n b c) : ExchangeFrame n a c where
  params := h'.params.trans h.params
  cfg := h'.cfg.trans h.cfg
  port := h'.port.trans h.port
  tx i hi := (h'.tx i hi).trans (h.tx i hi)
  rx i hi := (h'.rx i (h.cfg ▸ hi)).trans (h.rx i hi)
  lineBaud := h'.lineBaud.trans h.lineBaud
  lineBits := h'.lineBits.trans h.lineBits
  lineStop := h'.lineStop.trans h.lineStop
  lineParity := h'.lineParity.trans h.lineParity
  claimed := h'.claimed.trans h.claimed
  grantedBaud := h'.grantedBaud.trans h.grantedBaud

/-- The retry registers and the answers to the host stand outside. -/
theorem ExchangeFrame.congr {n : Nat} {s t t' : State} (h : ExchangeFrame n s t)
    (e : t' = { t with policy := t'.policy, result := t'.result, device := t'.device }) :
    ExchangeFrame n s t' := by
  rw [e]
  exact { h with }

/-- No byte stands at or beyond `CAP` between two commands (10_state R21). -/
theorem Inv.rx_read_of_ge {s : State} (h : Inv s) {a : Nat} (ha : s.cfg.cap ≤ a) : s.rx.mem.read a = 0 :=
  Memory.read_unlisted fun c hc => by
    have := h.rxIn c hc
    have := h.rxLen
    omega

theorem beginExchange_txBytes (id ins : Byte) (p : List Byte) (wait : Word40) {s : State}
    (h : Memory.wf s.tx.mem) : (beginExchange id ins p wait s).txBytes = frameOf id ins p :=
  encodeInto_txBytes id ins p (s := latchRequest id ins p wait (clearFlags (clearRx (clearResp s)))) h

/-- An exchange that ended leaves what `ExchangeFrame` names. -/
theorem exchange_frame {id ins : Byte} {p : List Byte} {wait : Word40} {s t : State} (hs : Inv s)
    (ht : Inv t) (h : exchange id ins p wait s = some t) :
    ExchangeFrame (frameOf id ins p).length s t := by
  have hset := exchange_settles h
  obtain ⟨-, -, -, -, -, hbaud, hbits, hstop, hparity, hclaimed, hgranted⟩ :=
    Transport.emit_fields (beginExchange id ins p wait s).txBytes s.line.tick
  have hcfg : t.cfg = s.cfg := exchange_cfg h
  have htx : t.tx = (beginExchange id ins p wait s).tx := by rw [hset.eq]; rfl
  have htick := s.line.tick_listens
  exact {
    params := by rw [hset.eq]; rfl
    cfg := hcfg
    port := by rw [hset.eq]; rfl
    tx := fun a ha => by
      rw [State.txByte, htx]
      exact encodeInto_txByte_of_ge id ins p
        (latchRequest id ins p wait (clearFlags (clearRx (clearResp s)))) ha
    rx := fun a ha => by rw [ht.rx_read_of_ge (hcfg ▸ ha), hs.rx_read_of_ge ha]
    lineBaud := hset.line.baud.trans (hbaud.trans htick.baud)
    lineBits := hset.line.bits.trans (hbits.trans htick.bits)
    lineStop := hset.line.stop.trans (hstop.trans htick.stop)
    lineParity := hset.line.parity.trans (hparity.trans htick.parity)
    claimed := hset.line.claimed.trans (hclaimed.trans htick.claimed)
    grantedBaud := hset.line.grantedBaud.trans (hgranted.trans htick.grantedBaud) }

/-! ## Exchanges in a row -/

/-- `k` exchanges of one request, and the writes of the retry registers between them. -/
structure Exchanged (id ins : Byte) (p : List Byte) (wait : Word40) (k : Nat) (s t : State) : Prop where
  inv : Inv t
  quiet : t.line.goesQuiet
  req : t.req = ⟨id, ins, p, wait⟩
  sent : t.line.sent = s.line.sent ++ List.replicate k (frameOf id ins p)
  outcome : t.resp.outcome.isExchange = true
  frame : ExchangeFrame (frameOf id ins p).length s t

section

variable {id ins : Byte} {p : List Byte} {wait : Word40} {k j : Nat} {s t u : State}

theorem Exchanged.trans (h : Exchanged id ins p wait k s t) (h' : Exchanged id ins p wait j t u) :
    Exchanged id ins p wait (k + j) s u :=
  { h' with
    sent := by rw [h'.sent, h.sent, List.append_assoc, List.replicate_add]
    frame := h.frame.trans h'.frame }

/-- The answers to the host are not looked at. -/
theorem Exchanged.congr (h : Exchanged id ins p wait k s t)
    (e : u = { t with result := u.result, device := u.device }) : Exchanged id ins p wait k s u := by
  have hinv : Inv u := h.inv.congr (by rw [e]) (by rw [e]) (by rw [e])
  have hframe := h.frame.congr (t' := u) (by rw [e])
  rw [e] at hinv hframe ⊢
  exact { h with inv := hinv, frame := hframe }

/-- The start's retry registers are not looked at. -/
theorem Exchanged.of_policy {r : PolicyRegs} (h : Exchanged id ins p wait k { s with policy := r } t) :
    Exchanged id ins p wait k s t :=
  { h with frame := { h.frame with } }

theorem exchange_sent (hs : Inv s) (h : exchange id ins p wait s = some t) :
    t.line.sent = s.line.sent ++ [frameOf id ins p] := by
  rw [← beginExchange_txBytes id ins p wait hs.txWf]
  exact (exchange_settles h).line.sent.trans (Transport.send_sent _ _)

/-- One exchange on a line that goes quiet (R148, R157), with `ATTEMPT` set before it. -/
theorem exchange_once (hs : Inv s) (hp : s.takes p) (hq : s.line.goesQuiet) (v : Byte) :
    ∃ t, exchange id ins p wait (setAttempt v s) = some t ∧ t.policy = (setAttempt v s).policy ∧
      Exchanged id ins p wait 1 s t := by
  have hs' : Inv (setAttempt v s) := hs.congr rfl rfl rfl
  obtain ⟨t, ht, hquiet⟩ := exchange_ends (s := setAttempt v s) hq id ins p wait
  have hinv : Inv t := hs'.exchange hp ht
  refine ⟨t, ht, by rw [(exchange_settles ht).eq]; rfl, .of_policy (r := (setAttempt v s).policy) ?_⟩
  exact {
    inv := hinv
    quiet := hquiet
    req := by rw [(exchange_settles ht).eq]; rfl
    sent := exchange_sent hs' ht
    outcome := exchange_outcome hs' hp ht
    frame := exchange_frame hs' hinv ht }

theorem Exchanged.takes (h : Exchanged id ins p wait k s t) (hp : s.takes p) : t.takes p := by
  rw [State.takes, h.frame.cfg, h.frame.params]
  exact hp

/-- The retry loop makes at least one and at most `n` exchanges, and `ATTEMPT` counts them (R174). -/
theorem attempts_exchanged {n : Nat} (hn : 0 < n) (hs : Inv s) (hp : s.takes p)
    (hq : s.line.goesQuiet) (hcount : s.policy.attempt.toNat + n ≤ 255) :
    ∃ t k, attempts id ins p wait n s = some t ∧ 1 ≤ k ∧ k ≤ n ∧
      t.policy.attempt.toNat = s.policy.attempt.toNat + k ∧ Exchanged id ins p wait k s t := by
  induction n generalizing s with
  | zero => omega
  | succ n ih =>
    obtain ⟨t, ht, hpolicy, hx⟩ := exchange_once (id := id) (ins := ins) (wait := wait) hs hp hq
      (s.policy.attempt + 1)
    have hattempt : t.policy.attempt.toNat = s.policy.attempt.toNat + 1 := by
      rw [hpolicy, setAttempt_policy, BitVec.toNat_add]
      exact Nat.mod_eq_of_lt (by simp; omega)
    have hstop : ∃ u k, some t = some u ∧ 1 ≤ k ∧ k ≤ n + 1 ∧
        u.policy.attempt.toNat = s.policy.attempt.toNat + k ∧ Exchanged id ins p wait k s u :=
      ⟨t, 1, rfl, le_rfl, by omega, hattempt, hx⟩
    simp only [attempts, ht]
    split
    · exact hstop
    · split
      · exact hstop
      · rcases Nat.eq_zero_or_pos n with rfl | hpos
        · exact hstop
        · obtain ⟨u, k, hu, hk, hkn, hcnt, hxs⟩ :=
            ih hpos hx.inv (hx.takes hp) hx.quiet (by omega)
          exact ⟨u, 1 + k, hu, by omega, by omega, by omega, hx.trans hxs⟩

/-! ## The command of a call (R84, R178) -/

theorem itersOf_toNat (iters : Byte) :
    (itersOf iters).toNat = if iters = 0 then 5 else iters.toNat := by
  unfold itersOf
  split
  · rfl
  · exact BitVec.toNat_setWidth_of_le (by decide)

/-- How many attempts a call may make (44_retry_policy R172, R178). -/
def maxAttempts (f : Form) (iters : Byte) : Nat :=
  if f = .single then 1 else if iters = 0 then 5 else iters.toNat

theorem issueCall_exchanged (f : Form) (mult iters : Byte) (hs : Inv s) (hp : s.takes p)
    (hq : s.line.goesQuiet) :
    ∃ u n, issueCall f id ins p mult iters s = some u ∧ 1 ≤ n ∧ n ≤ maxAttempts f iters ∧
      u.policy.attempt.toNat = n ∧ u.result = ⟨u.resp.outcome, respData u⟩ ∧
      Exchanged id ins p (waitEff s.cfg.waitUs mult) n s u := by
  have haccepts : accepts p s = true := (accepts_iff p s).mpr ⟨hs.idle, hp⟩
  cases f with
  | single =>
    obtain ⟨t, ht, hpolicy, hx⟩ := exchange_once (id := id) (ins := ins)
      (wait := waitEff s.cfg.waitUs mult) hs hp hq 1
    refine ⟨presentOutcome t, 1, ?_, le_rfl, le_rfl, ?_, rfl, hx.congr rfl⟩
    · rw [issueCall, runXchg, if_pos haccepts, ht, Option.map_some]
    · exact congrArg (fun r => r.attempt.toNat) hpolicy
  | retried =>
    have hiters := itersOf_toNat iters
    have hbound : 1 ≤ (itersOf iters).toNat ∧ (itersOf iters).toNat ≤ 255 := by
      rw [hiters]
      split
      · decide
      · next h0 => have := iters.isLt; bv_omega
    obtain ⟨t, k, ht, hk, hkn, hcount, hx⟩ := attempts_exchanged (id := id) (ins := ins)
      (wait := waitEff s.cfg.waitUs mult) (s := startPolicy iters s) hbound.1 (hs.congr rfl rfl rfl)
      hp hq (by simpa using hbound.2)
    refine ⟨presentOutcome t, k, ?_, hk, hkn.trans_eq hiters, hcount.trans (Nat.zero_add k), rfl,
      Exchanged.congr (Exchanged.of_policy (r := (startPolicy iters s).policy) hx) rfl⟩
    rw [issueCall, runXchgr, if_pos haccepts, ht, Option.map_some]

end

/-! ## Calls (45_device_ops R186, R192) -/

/-- The post-processing of a call, which depends on whether it is a read (R192). -/
inductive Finishes : Bool → (State → State) → Prop
  | plain : Finishes false finishPlain
  | read (len : Word16) (value : List Byte → Value) : Finishes true (finishRead len value)

/-- The post-processing answers the outcome, but for a read that succeeded. -/
theorem Finishes.answer {isRead : Bool} {fin : State → State} (h : Finishes isRead fin) {u : State}
    {o : Code} (ho : u.result.code = o) : ∃ d, fin u = { u with device := d } ∧
      (isRead = false ∨ o ≠ .success → d = ⟨o, .none⟩) ∧
      (isRead = true → o = .success → d.code = .success ∨ d = ⟨.wrongParameter, .none⟩) := by
  subst ho
  cases h with
  | plain => exact ⟨_, finishPlain_eq u, fun _ => rfl, nofun⟩
  | read len value =>
    rcases finishRead_cases len value u with ⟨hc, e⟩ | ⟨hc, -, e⟩ | ⟨hc, -, e⟩ <;>
      refine ⟨_, e, ?_, ?_⟩
    · exact fun _ => rfl
    · exact fun _ hs => absurd hs hc
    · exact fun h => absurd hc (h.resolve_left nofun)
    · exact fun _ _ => .inr rfl
    · exact fun h => absurd hc (h.resolve_left nofun)
    · exact fun _ _ => .inl rfl

theorem issue_request (f : Form) (waitUs : Word32) (id code : Byte) (p : List Byte) (m n : Byte) :
    (issue f waitUs id code p m n).request = some (id, code, p) := by
  cases f <;> rfl

/-- A call that expands to a command is that command and its post-processing. -/
theorem exec_of_expand {s : State} {i j : Instr} {f : Form} {id ins m n : Byte} {p : List Byte}
    (h : expand s.params s.cfg.waitUs i = some j) (hj : j.request = some (id, ins, p))
    (hi : i.policy = some (f, m, n)) :
    ∃ fin, Finishes i.isRead fin ∧ exec i s = orNeverEnds ((issueCall f id ins p m n s).map fin) := by
  cases i with
  | ping | write | regwrite | action | freset | reboot | setTorqueEnable | setOperatingMode
  | setBaudRate =>
    cases h; cases hi
    cases (issue_request ..).symm.trans hj
    exact ⟨_, .plain, rfl⟩
  | read | getTorqueEnable | getPosition | getVelocity | getCurrent | getTemperature | getDelayTime
  | getDriveMode | getOperatingMode | getBaudRate =>
    cases h; cases hi
    cases (issue_request ..).symm.trans hj
    exact ⟨_, .read _ _, rfl⟩
  | setDelayTime =>
    obtain ⟨b, hb, rfl⟩ := Option.map_eq_some_iff.mp h
    cases hi
    cases (issue_request ..).symm.trans hj
    refine ⟨_, .plain, ?_⟩
    simp only [exec, execSetDelayTime, setDelayCall, hb]
    rfl
  | _ => cases hi

end Sys2Proof.Machine

open Sys2Proof Sys2Proof.Machine in
/-- Settles O52: the call's command is a row of exchanges, counted by `ATTEMPT`, and the post-processing writes
the device layer's answer only. -/
theorem callsSendTheirFrameAndReport : Obligations.CallsSendTheirFrameAndReport := by
  intro s i j f id ins mult iters p hs hj hreq hi hp hq
  obtain ⟨fin, hfin, hexec⟩ := exec_of_expand hj hreq hi
  obtain ⟨u, n, hu, hn, hmax, hcount, hresult, hx⟩ :=
    issueCall_exchanged (id := id) (ins := ins) f mult iters hs hp hq
  obtain ⟨d, hd, hplain, hread⟩ := hfin.answer (u := u) (by rw [hresult])
  refine ⟨fin u, n, by rw [hexec, hu]; rfl, hn, ?_⟩
  have hx' : Exchanged id ins p (waitEff s.cfg.waitUs mult) n s (fin u) := hx.congr (by rw [hd])
  rw [hd] at hx' ⊢
  exact ⟨hcount, hx'.inv.idle, hmax, hx'.req, hx'.sent, hx'.outcome, hresult, hplain, hread, hx'.frame⟩
end

section
/-!
# The calls and accessors as READs and WRITEs (30_encoding R84, 45_device_ops R189 to R207)
-/

namespace Sys2Proof

open Config

/-! ## What a SET writes (R197, R198, R204, R206, R207) -/

theorem delayByte_of_le (c : Params) {us : Nat} (h : us ≤ 510) :
    delayByte c us = some (BitVec.ofNat 8 ((us + 1) / 2)) :=
  if_pos (by omega)

theorem encodeQuantity_delayTime (c : Params) {us : Nat} (h : us ≤ 510) :
    encodeQuantity c .delayTime (.natural us) = some [BitVec.ofNat 8 ((us + 1) / 2)] :=
  congrArg (Option.map _) (delayByte_of_le c h)

theorem encodeQuantity_operatingMode (c : Params) {n : Nat} (h : n ≤ 255) :
    encodeQuantity c .operatingMode (.natural n) = some [BitVec.ofNat 8 n] := if_pos h

theorem encodeQuantity_baudRate (c : Params) {n : Nat} (h : n ≤ 255) :
    encodeQuantity c .baudRate (.natural n) = some [BitVec.ofNat 8 n] := if_pos h

theorem rawBytes_length (w : Width) (raw : Word32) : (rawBytes w raw).length = (widthLen w).toNat := by
  cases w <;> rfl

/-- The positions, velocities and currents take any number; the raw integer is free (R202, log 34). -/
theorem encodeQuantity_scaled (c : Params) {q : Quantity} (num : Int) (den : Nat)
    (hq : q ∈ [.presentPosition, .goalPosition, .presentVelocity, .goalVelocity, .presentCurrent,
      .goalCurrent]) :
    encodeQuantity c q (.rational num den) =
      some (rawBytes (c.regmap.row q).width (freeRaw q num den)) := by
  cases q with
  | torqueEnable | temperature | delayTime | driveMode | operatingMode | baudRate => simp at hq
  | _ => rfl

/-- A number that fits its width is written digit by digit, lowest first (R197). -/
theorem unsignedBytes_value (q : Quantity) (w : Width) {k : Nat} (h : k < 256 ^ (widthLen w).toNat) :
    (unsignedBytes q w k).foldr (fun b v => b.toNat + 256 * v) 0 = k := by
  rw [unsignedBytes, if_pos h]
  cases w <;> simp [rawBytes, widthLen, le32, Nat.shiftRight_eq_div_pow] at h ⊢ <;> omega

theorem getElem_mask_or_zero (f : Bool) (m : Byte) {i : Nat} (hi : i < 8) :
    (if f then m else 0)[i] = (f && m[i]) := by
  cases f <;> simp

theorem disjoint_getElem {m m' : Byte} (h : m &&& m' = 0) {i : Nat} (hi : i < 8) :
    (m[i] && m'[i]) = false := by
  rw [← BitVec.getElem_and hi, h]
  exact BitVec.getElem_zero hi

/-- Masks that share no bit are set and cleared independently, bit by bit (R198). -/
theorem driveModeByte_masks (c : Params) (f1 f2 f3 : Bool) (h12 : c.mask1 &&& c.mask2 = 0)
    (h13 : c.mask1 &&& c.mask3 = 0) (h23 : c.mask2 &&& c.mask3 = 0) :
    driveModeByte c f1 f2 f3 &&& c.mask1 = (if f1 then c.mask1 else 0) ∧
    driveModeByte c f1 f2 f3 &&& c.mask2 = (if f2 then c.mask2 else 0) ∧
    driveModeByte c f1 f2 f3 &&& c.mask3 = (if f3 then c.mask3 else 0) := by
  refine ⟨?_, ?_, ?_⟩ <;> ext i hi <;>
    simp only [driveModeByte, BitVec.getElem_and, BitVec.getElem_or, BitVec.getElem_not,
      getElem_mask_or_zero] <;>
    grind [disjoint_getElem h12 hi, disjoint_getElem h13 hi, disjoint_getElem h23 hi]

end Sys2Proof

namespace Sys2Proof.Machine

open Config

/-! ## Accessors and the calls they stand for (log 34) -/

/-- A SET whose value has an encoding is the WRITE of it at the quantity's row. -/
theorem execAccess_set_of_encodes {f : Form} {q : Quantity} {id m n : Byte} {v : Value}
    {data : List Byte} {s : State} (h : encodeQuantity s.params q v = some data) :
    execAccess (.set f q id v m n) s =
      exec (.write f id (s.params.regmap.row q).addr data m n) s := by
  simp only [execAccess, accessCall, setCall, h]
  rfl

theorem execAccess_set_of_no_encoding {f : Form} {q : Quantity} {id m n : Byte} {v : Value}
    {s : State} (h : encodeQuantity s.params q v = none) :
    execAccess (.set f q id v m n) s = .next { s with device := ⟨.refused, .none⟩ } := by
  simp only [execAccess, accessCall, setCall, h]
  rfl

/-- A SET_delay_time whose byte fits is the WRITE of it (R204). -/
theorem exec_setDelayTime_of_le {f : Form} {id m n : Byte} {us : Nat} (s : State) (h : us ≤ 510) :
    exec (.setDelayTime f id us m n) s = exec (.write f id s.params.regmap.delayTime.addr
      [BitVec.ofNat 8 ((us + 1) / 2)] m n) s := by
  simp only [exec, execSetDelayTime, setDelayCall, delayByte_of_le s.params h]
  rfl

/-- A GET is the READ of its row, and answers the decoding of what the READ answers (R190, R196). -/
theorem execAccess_get (f : Form) (q : Quantity) (id m n : Byte) (s : State) :
    ∃ o : Option State,
      exec (.read f id (s.params.regmap.row q).addr (widthLen (s.params.regmap.row q).width) m n) s =
        orNeverEnds (o.map (finishRead (widthLen (s.params.regmap.row q).width) .bytes)) ∧
      execAccess (.get f q id m n) s = orNeverEnds (o.map
        (finishRead (widthLen (s.params.regmap.row q).width) (decodeQuantity s.params q))) :=
  ⟨issueCall f id s.params.codes.read (readPayload _ _) m n s, rfl, rfl⟩

end Sys2Proof.Machine

open Sys2Proof Sys2Proof.Machine in
/-- Settles O53, row by row: the calls and the GETs are the model's own equations, a SET goes through what its
value encodes to, and an accessor's GET through the READ it decodes. -/
theorem callsExpandToTheTableCommands : Obligations.CallsExpandToTheTableCommands := by
  intro c w f id m n
  refine ⟨fun _ _ => ⟨rfl, rfl⟩, rfl, fun _ _ => rfl, fun _ _ => rfl, fun _ _ => rfl, rfl,
    fun _ => rfl, rfl, fun q i hi => ?gets, fun q data v i us code hus hcode hi => ?sets,
    fun q s => ?get, fun q v s => ?set, fun q num den hq => ?scaled, fun k hk => ?temperature,
    fun f1 f2 f3 h12 h13 h23 => ?driveMode⟩
  case gets =>
    simp only [List.mem_cons, Prod.mk.injEq, List.not_mem_nil, or_false] at hi
    rcases hi with ⟨rfl, rfl⟩ | ⟨rfl, rfl⟩ | ⟨rfl, rfl⟩ | ⟨rfl, rfl⟩ | ⟨rfl, rfl⟩ | ⟨rfl, rfl⟩ |
      ⟨rfl, rfl⟩ | ⟨rfl, rfl⟩ | ⟨rfl, rfl⟩ <;>
    exact ⟨rfl, fun _ => rfl⟩
  case sets =>
    simp only [List.mem_cons, Prod.mk.injEq, List.not_mem_nil, or_false] at hi
    rcases hi with ⟨rfl, rfl, rfl, rfl⟩ | ⟨rfl, rfl, rfl, rfl⟩ | ⟨rfl, rfl, rfl, rfl⟩ |
      ⟨rfl, rfl, rfl, rfl⟩ | ⟨rfl, rfl, rfl, rfl⟩
    · exact ⟨rfl, rfl, fun _ => rfl⟩
    · exact ⟨rfl, rfl, fun _ => rfl⟩
    · refine ⟨?_, encodeQuantity_delayTime c hus, fun s => ?_⟩
      · exact congrArg (Option.map _) (delayByte_of_le c hus)
      · rw [execAccess_set_of_encodes (encodeQuantity_delayTime s.params hus)]
        exact exec_setDelayTime_of_le s hus
    · refine ⟨rfl, encodeQuantity_operatingMode c hcode, fun s => ?_⟩
      rw [execAccess_set_of_encodes (encodeQuantity_operatingMode s.params hcode)]
      rfl
    · refine ⟨rfl, encodeQuantity_baudRate c hcode, fun s => ?_⟩
      rw [execAccess_set_of_encodes (encodeQuantity_baudRate s.params hcode)]
      rfl
  case get =>
    obtain ⟨o, hread, hget⟩ := execAccess_get f q id m n s
    rw [hread, hget]
    cases o with
    | none => rfl
    | some u => exact congrArg Host.Outcome.next (finishRead_bytes _ _ u)
  case set =>
    cases hv : encodeQuantity s.params q v with
    | some data => exact execAccess_set_of_encodes hv
    | none => exact execAccess_set_of_no_encoding hv
  case scaled => exact ⟨_, encodeQuantity_scaled c num den hq, rawBytes_length _ _⟩
  case temperature => exact ⟨_, rfl, rawBytes_length _ _, unsignedBytes_value _ _ hk⟩
  case driveMode => exact ⟨_, rfl, driveModeByte_masks c f1 f2 f3 h12 h13 h23⟩
end

section
/-!
# The Checksum Engine (40_checksum_bytepair R90 to R93)

The step is linear over exclusive-or and loses nothing: `POLY` has bit 0, which the shift clears, so the result
shows whether the polynomial was applied. Both facts pass to a byte and to a byte list.
-/

namespace Sys2Proof

/-! ## Linearity -/

theorem crcStep_xor (c d : Word16) : crcStep (c ^^^ d) = crcStep c ^^^ crcStep d := by
  simp only [crcStep, BitVec.getLsbD_xor, BitVec.shiftLeft_xor_distrib]
  cases c.getLsbD 15 <;> cases d.getLsbD 15
  case false.false => rfl
  case false.true => exact BitVec.xor_assoc _ _ _
  case true.false =>
    show c <<< 1 ^^^ d <<< 1 ^^^ Config.poly = (c <<< 1 ^^^ Config.poly) ^^^ d <<< 1
    ac_rfl
  case true.true =>
    calc c <<< 1 ^^^ d <<< 1
      _ = (c <<< 1 ^^^ d <<< 1) ^^^ (Config.poly ^^^ Config.poly) := by simp
      _ = (c <<< 1 ^^^ Config.poly) ^^^ (d <<< 1 ^^^ Config.poly) := by ac_rfl

theorem crcSteps_xor (n : Nat) (c d : Word16) :
    crcSteps n (c ^^^ d) = crcSteps n c ^^^ crcSteps n d := by
  induction n generalizing c d with
  | zero => rfl
  | succ n ih => rw [crcSteps, crcStep_xor, ih, crcSteps, crcSteps]

theorem crcByte_xor (c d : Word16) (a b : Byte) :
    crcByte (c ^^^ d) (a ^^^ b) = crcByte c a ^^^ crcByte d b := by
  rw [crcByte, crcByte, crcByte, ← crcSteps_xor, BitVec.setWidth_xor, BitVec.shiftLeft_xor_distrib]
  congr 1
  ac_rfl

theorem crcFrom_zipWith_xor (c d : Word16) {a b : List Byte} (h : a.length = b.length) :
    crcFrom (c ^^^ d) (List.zipWith (· ^^^ ·) a b) = crcFrom c a ^^^ crcFrom d b := by
  induction a generalizing b c d with
  | nil =>
    obtain rfl := List.eq_nil_of_length_eq_zero h.symm
    rfl
  | cons x a ih =>
    obtain ⟨y, b, rfl⟩ := List.exists_cons_of_length_eq_add_one h.symm
    show crcFrom (crcByte (c ^^^ d) (x ^^^ y)) _ = crcFrom (crcByte c x) a ^^^ crcFrom (crcByte d y) b
    rw [crcByte_xor, ih _ _ (Nat.succ.inj h)]

/-! ## Injectivity -/

/-- The step's result has bit 0 exactly when it applied the polynomial. -/
theorem crcStep_getLsbD_zero (c : Word16) : (crcStep c).getLsbD 0 = c.getLsbD 15 := by
  rw [crcStep]
  cases c.getLsbD 15 <;> simp [Config.poly]

theorem crcStep_injective : Function.Injective crcStep := by
  intro c d h
  have htop : c.getLsbD 15 = d.getLsbD 15 := by
    rw [← crcStep_getLsbD_zero, h, crcStep_getLsbD_zero]
  have hshift : c <<< 1 = d <<< 1 := by
    rw [crcStep, crcStep, htop] at h
    split at h
    · exact (BitVec.xor_left_inj _).mp h
    · exact h
  ext i hi
  obtain rfl | hlt : i = 15 ∨ i + 1 < 16 := by omega
  · exact htop
  · simpa [hlt] using congrArg (·.getLsbD (i + 1)) hshift

theorem crcSteps_injective : ∀ n, Function.Injective (crcSteps n)
  | 0 => Function.injective_id
  | n + 1 => (crcSteps_injective n).comp crcStep_injective

theorem crcByte_left_injective (b : Byte) : Function.Injective (crcByte · b) :=
  fun _ _ h => (BitVec.xor_left_inj _).mp (crcSteps_injective 8 h)

theorem crcByte_right_injective (c : Word16) : Function.Injective (crcByte c) := by
  intro a b h
  have hshift := (BitVec.xor_right_inj c).mp (crcSteps_injective 8 h)
  ext i hi
  simpa [show 8 + i < 16 by omega, hi] using congrArg (·.getLsbD (8 + i)) hshift

theorem crcFrom_left_injective (l : List Byte) : Function.Injective (crcFrom · l) := by
  induction l with
  | nil => exact Function.injective_id
  | cons b l ih => exact ih.comp (crcByte_left_injective b)

/-! ## Whole lists -/

/-- The checksum can be computed piece by piece (R93). -/
theorem crcFrom_append (c : Word16) (a b : List Byte) : crcFrom c (a ++ b) = crcFrom (crcFrom c a) b :=
  List.foldl_append

/-- Two lists that differ in one byte only have different checksums. -/
theorem crc16_byte_injective (pre post : List Byte) :
    Function.Injective fun b => crc16 (pre ++ b :: post) := by
  intro a b h
  simp only [crc16, crcFrom_append] at h
  exact crcByte_right_injective _ (crcFrom_left_injective post h)

theorem xor_one_shiftLeft_ne (b : Byte) {k : Nat} (hk : k < 8) : b ^^^ (1#8 <<< k) ≠ b := by
  intro h
  have hbit := congrArg (·.getLsbD k) h
  simp [hk] at hbit

/-- A leading `00` leaves the register at its initial value (R91). -/
theorem crc16_zero_cons (l : List Byte) : crc16 (0x00 :: l) = crc16 l :=
  congrArg (crcFrom · l) (show crcByte Config.crcInit 0x00 = Config.crcInit by decide)

end Sys2Proof

open Sys2Proof in
/-- Settles O12: the flipped byte differs, and a checksum tells apart any two values of one byte; linearity
holds from any pair of initial values, and the initial value of R90 is 0. -/
theorem checksumIsLinearAndSeesEveryBit : Obligations.ChecksumIsLinearAndSeesEveryBit :=
  ⟨by decide +kernel, by decide +kernel,
    fun pre post b _ hk h => xor_one_shiftLeft_ne b hk (crc16_byte_injective pre post h),
    fun _ _ h => (crcFrom_zipWith_xor Config.crcInit Config.crcInit h).symm⟩

open Sys2Proof in
/-- Settles O11: the checksum of `l` begins where the zero byte leaves the register. -/
theorem checksumIgnoresLeadingZeros : Obligations.ChecksumIgnoresLeadingZeros :=
  ⟨rfl, crc16_zero_cons, crc16_zero_cons [], by decide +kernel⟩
end

section
/-!
# The Byte-Pair Codec (40_checksum_bytepair R94 to R99)
-/

namespace Sys2Proof

/-! ## The value of two and of four bytes -/

theorem joinU16_toNat (b0 b1 : Byte) : (joinU16 b0 b1).toNat = b0.toNat + 256 * b1.toNat := by
  have h := le16_joinU16 b0 b1
  generalize joinU16 b0 b1 = v at h ⊢
  simp only [le16, lo8, hi8, List.cons.injEq, and_true] at h
  obtain ⟨rfl, rfl⟩ := h
  simp only [BitVec.toNat_setWidth, BitVec.toNat_ushiftRight, Nat.shiftRight_eq_div_pow]
  omega

theorem joinU32_toNat (b0 b1 b2 b3 : Byte) : (joinU32 b0 b1 b2 b3).toNat =
    b0.toNat + 256 * b1.toNat + 65536 * b2.toNat + 16777216 * b3.toNat := by
  have h := le32_joinU32 b0 b1 b2 b3
  generalize joinU32 b0 b1 b2 b3 = v at h ⊢
  simp only [le32, List.cons.injEq, and_true] at h
  obtain ⟨rfl, rfl, rfl, rfl⟩ := h
  simp only [BitVec.toNat_setWidth, BitVec.toNat_ushiftRight, Nat.shiftRight_eq_div_pow]
  omega

/-! ## Signed results (R98, R99, R73) -/

theorem toInt_word16 (v : Word16) :
    v.toInt = if v.toNat < 32768 then (v.toNat : Int) else (v.toNat : Int) - 65536 := by
  rw [BitVec.toInt_eq_toNat_cond]
  split <;> split <;> omega

theorem toInt_word32 (v : Word32) :
    v.toInt = if v.toNat < 2147483648 then (v.toNat : Int) else (v.toNat : Int) - 4294967296 := by
  rw [BitVec.toInt_eq_toNat_cond]
  split <;> split <;> omega

/-- The two's complement of a signed value is the word it was read from. -/
theorem map_le16Int_s16Of (b : List Byte) : (s16Of b).map le16Int = (u16Of b).map le16 := by
  rw [s16Of, Option.map_map]
  exact congrArg (Option.map · (u16Of b)) (funext fun _ => congrArg le16 BitVec.ofInt_toInt)

theorem map_le32Int_s32Of (b : List Byte) : (s32Of b).map le32Int = (u32Of b).map le32 := by
  rw [s32Of, Option.map_map]
  exact congrArg (Option.map · (u32Of b)) (funext fun _ => congrArg le32 BitVec.ofInt_toInt)

/-! ## Other lengths -/

theorem u16Of_of_length_ne {b : List Byte} (h : b.length ≠ 2) : u16Of b = none := by
  unfold u16Of
  split
  · exact absurd rfl h
  · rfl

theorem u32Of_of_length_ne {b : List Byte} (h : b.length ≠ 4) : u32Of b = none := by
  unfold u32Of
  split
  · exact absurd rfl h
  · rfl

end Sys2Proof

namespace Sys2Proof.Machine

/-! ## The commands on an Idle block (R230, R231) -/

theorem ifIdle_of_idle {s : State} (h : s.xstate = .idle) (k : State → State) : ifIdle k s = k s :=
  if_pos h

section
variable {s : State} (h : s.xstate = .idle) {b : List Byte} {d : Option (List Byte)}
include h

/-- U16 and S16 present the same bytes. -/
theorem exec_join16_of_idle (hd : (u16Of b).map le16 = d) :
    exec (.u16 b) s = .next (presentOrRefuse d s) ∧ exec (.s16 b) s = .next (presentOrRefuse d s) :=
  ⟨congrArg Host.Outcome.next ((ifIdle_of_idle h _).trans (by rw [hd])),
    congrArg Host.Outcome.next ((ifIdle_of_idle h _).trans (by rw [map_le16Int_s16Of, hd]))⟩

/-- U32 and S32 present the same bytes. -/
theorem exec_join32_of_idle (hd : (u32Of b).map le32 = d) :
    exec (.u32 b) s = .next (presentOrRefuse d s) ∧ exec (.s32 b) s = .next (presentOrRefuse d s) :=
  ⟨congrArg Host.Outcome.next ((ifIdle_of_idle h _).trans (by rw [hd])),
    congrArg Host.Outcome.next ((ifIdle_of_idle h _).trans (by rw [map_le32Int_s32Of, hd]))⟩

end

end Sys2Proof.Machine

open Sys2Proof Sys2Proof.Machine in
/-- Settles O14: the signed commands present what the unsigned ones do, the bytes the value was joined from; a
list of another length has no value. -/
theorem joinCommandsAnswerOrRefuse : Obligations.JoinCommandsAnswerOrRefuse := by
  intro s hs
  refine ⟨fun b0 b1 => ?two, fun b0 b1 b2 b3 => ?four, fun b hb => ?notTwo, fun b hb => ?notFour⟩
  case two =>
    have hv := joinU16_toNat b0 b1
    obtain ⟨hunsigned, hsigned⟩ := exec_join16_of_idle hs (b := [b0, b1]) (congrArg some (le16_joinU16 b0 b1))
    exact ⟨hunsigned, hsigned, congrArg some hv, congrArg some (hv ▸ toInt_word16 _)⟩
  case four =>
    have hv := joinU32_toNat b0 b1 b2 b3
    obtain ⟨hunsigned, hsigned⟩ := exec_join32_of_idle hs (b := [b0, b1, b2, b3])
      (congrArg some (le32_joinU32 b0 b1 b2 b3))
    exact ⟨hunsigned, hsigned, congrArg some hv, congrArg some (hv ▸ toInt_word32 _)⟩
  case notTwo => exact exec_join16_of_idle hs (congrArg (Option.map le16) (u16Of_of_length_ne hb))
  case notFour => exact exec_join32_of_idle hs (congrArg (Option.map le32) (u32Of_of_length_ne hb))

open Sys2Proof Sys2Proof.Machine in
/-- Settles O13: each presents the bytes of R90, R94 or R95, a byte list behind its length (R73, log 11). -/
theorem splitAndChecksumCommandsAnswer : Obligations.SplitAndChecksumCommandsAnswer := by
  intro s hs
  refine ⟨fun v => ?le16, fun v => ?le32, fun data => ?crc16⟩
  case le16 =>
    have hblob : blob (le16 v) = natLe16 2 ++ le16 v := blob_of_fits (by simp [le16])
    exact congrArg Host.Outcome.next ((ifIdle_of_idle hs _).trans (by rw [hblob]; rfl))
  case le32 =>
    have hblob : blob (le32 v) = natLe16 4 ++ le32 v := blob_of_fits (by simp [le32])
    exact congrArg Host.Outcome.next ((ifIdle_of_idle hs _).trans (by rw [hblob]; rfl))
  case crc16 => exact congrArg Host.Outcome.next (ifIdle_of_idle hs _)
end

section
/-!
# The encode side: STUFF and ENCODE (41_frame_encode R105 to R115)
-/

namespace Sys2Proof

/-! ## STUFF as the loop over the payload (R105) -/

/-- What the loop of R105 emits for the byte at the end of the window at offset `i`. The list `w` is the
payload behind two bytes, so that every payload byte has a window. -/
def stuffStep (w : List Byte) (i : Nat) : List Byte :=
  if w.getD i 0 = 0xFF ∧ w.getD (i + 1) 0 = 0xFF ∧ w.getD (i + 2) 0 = 0xFD
    then [w.getD (i + 2) 0, 0xFD] else [w.getD (i + 2) 0]

theorem stuffFrom_cons (b2 b1 b : Byte) (bs : List Byte) :
    stuffFrom b2 b1 (b :: bs) = stuffStep (b2 :: b1 :: b :: bs) 0 ++ stuffFrom b1 b bs := by
  show _ = (if b2 = 0xFF ∧ b1 = 0xFF ∧ b = 0xFD then [b, 0xFD] else [b]) ++ _
  rw [stuffFrom]
  split <;> rfl

theorem stuffFrom_eq_flatMap (b2 b1 : Byte) (p : List Byte) :
    stuffFrom b2 b1 p = (List.range p.length).flatMap (stuffStep (b2 :: b1 :: p)) := by
  induction p generalizing b2 b1 with
  | nil => rfl
  | cons b bs ih =>
    rw [stuffFrom_cons, ih, List.length_cons, List.range_succ_eq_map, List.flatMap_cons, List.flatMap_map]
    rfl

/-- The `00` bytes before the payload match nothing, so the loop starts at the third byte (R105). -/
theorem stuffStep_of_payload (p : List Byte) (i : Nat) :
    stuffStep (0 :: 0 :: p) i =
      if 2 ≤ i ∧ p.getD (i - 2) 0 = 0xFF ∧ p.getD (i - 1) 0 = 0xFF ∧ p.getD i 0 = 0xFD
        then [p.getD i 0, 0xFD] else [p.getD i 0] := by
  match i with
  | 0 => simp [stuffStep]
  | 1 => simp [stuffStep]
  | j + 2 => simp [stuffStep]

/-! ## How much STUFF adds (R107 (a)) -/

/-- How many bytes of `SIG` the window `b2 b1` may have seen already: the next insertion needs only the rest. -/
def sigSeen (b2 b1 : Byte) : Nat := if b1 = 0xFF then (if b2 = 0xFF then 2 else 1) else 0

/-- One byte is inserted for three payload bytes, and the window may hold some of the first three. -/
theorem stuffFrom_length_le_third (b2 b1 : Byte) (p : List Byte) :
    3 * (stuffFrom b2 b1 p).length ≤ 4 * p.length + sigSeen b2 b1 := by
  induction p generalizing b2 b1 with
  | nil => simp [stuffFrom]
  | cons b bs ih =>
    have hrest := ih b1 b
    unfold stuffFrom
    split
    · next hs =>
      obtain ⟨rfl, rfl, rfl⟩ := hs
      have hfull : sigSeen 0xFF 0xFF = 2 := rfl
      have hnone : sigSeen 0xFF 0xFD = 0 := rfl
      simp only [List.length_cons]
      omega
    · have hone : sigSeen b1 b ≤ sigSeen b2 b1 + 1 := by
        unfold sigSeen
        split_ifs <;> omega
      simp only [List.length_cons]
      omega

theorem stuff_length_le (p : List Byte) : (stuff p).length ≤ p.length + p.length / 3 := by
  have h : 3 * (stuff p).length ≤ 4 * p.length + 0 := stuffFrom_length_le_third 0 0 p
  omega

/-! ## A stuffed payload holds no header (R107 (c)) -/

/-- Every `SIG` in the list is followed by the stuffing byte. -/
def SigsStuffed (l : List Byte) : Prop :=
  ∀ i, (l.drop i).take 3 = [0xFF, 0xFF, 0xFD] → l[i + 3]? = some 0xFD

theorem sigsStuffed_cons {b : Byte} {l : List Byte} :
    SigsStuffed (b :: l) ↔
      ((b :: l).take 3 = [0xFF, 0xFF, 0xFD] → l[2]? = some 0xFD) ∧ SigsStuffed l :=
  ⟨fun h => ⟨h 0, fun i => h (i + 1)⟩, fun ⟨h0, h⟩ i =>
    match i with
    | 0 => h0
    | i + 1 => h i⟩

theorem sigsStuffed_nil : SigsStuffed [] := fun i h => by simp at h

/-- The window before the payload takes part: a `SIG` may begin in it. -/
theorem sigsStuffed_stuffFrom (b2 b1 : Byte) (p : List Byte) :
    SigsStuffed (b2 :: b1 :: stuffFrom b2 b1 p) := by
  induction p generalizing b2 b1 with
  | nil => simp [sigsStuffed_cons, sigsStuffed_nil, stuffFrom]
  | cons b bs ih =>
    unfold stuffFrom
    split
    · next hs =>
      obtain ⟨rfl, rfl, rfl⟩ := hs
      -- no `SIG` begins with the inserted byte or with the two before it
      have htail := (sigsStuffed_cons.mp (ih 0xFF 0xFD)).2
      simpa [sigsStuffed_cons, Config.stuffByte] using htail
    · next hs =>
      refine sigsStuffed_cons.mpr ⟨fun h => absurd ?_ hs, ih b1 b⟩
      simpa using h

theorem sigsStuffed_stuff (p : List Byte) : SigsStuffed (stuff p) :=
  (sigsStuffed_cons.mp (sigsStuffed_cons.mp (sigsStuffed_stuffFrom 0 0 p)).2).2

/-- A header is `SIG` with `00`, no stuffing byte, behind it. -/
theorem SigsStuffed.hdrfind_eq_none {l : List Byte} (h : SigsStuffed l) : hdrfind l = none := by
  by_contra hne
  obtain ⟨k, hk⟩ := Option.ne_none_iff_exists'.mp hne
  have hhdr := hdrfind_some hk
  have hsig : (l.drop k).take 3 = [0xFF, 0xFF, 0xFD] := by
    simpa [List.take_take, Config.hdr] using congrArg (List.take 3) hhdr
  have hzero : ((l.drop k).take 4)[3]? = some 0x00 := by rw [hhdr]; rfl
  rw [List.getElem?_take_of_lt (by decide), List.getElem?_drop] at hzero
  exact absurd (hzero.symm.trans (h k hsig)) (by decide)

end Sys2Proof

namespace Sys2Proof.Machine

/-- A frame that stands at offset 0 is presented with keep `00 00` (R126, log 11). -/
theorem decodeData_success_zero (id ins : Byte) (content : List Byte) (cc cw : Word16) :
    decodeData (.success ⟨0, id, ins, content, cc, cw⟩) =
      [3, 0, 0, id, ins] ++ blob content ++ le16 cc ++ le16 cw := by
  simp [decodeData, fieldsData, DecodeResult.number, natLe16, le16, lo8, hi8]

theorem exec_decode_of_idle {s : State} (h : s.xstate = .idle) {buf : List Byte}
    (hcap : buf.length ≤ s.cfg.cap) : exec (.decode buf) s =
      .next (present .success (decodeData (decodeFrameBytes buf)) s) :=
  congrArg Host.Outcome.next ((ifIdle_of_idle h _).trans (if_pos hcap))

theorem exec_encode_of_idle {s : State} (h : s.xstate = .idle) (id ins : Byte) (p : List Byte) :
    exec (.encode id ins p) s = .next (encodeCommand id ins p s) :=
  congrArg Host.Outcome.next (ifIdle_of_idle h _)

end Sys2Proof.Machine

open Sys2Proof Sys2Proof.Machine in
/-- Settles O22: ENCODE's frame begins with the only header DECODE looks at, its length field counts its bytes,
and DESTUFF undoes STUFF. -/
theorem encodeThenDecodeRestoresTheRequest : Obligations.EncodeThenDecodeRestoresTheRequest := by
  intro id ins p hp
  have hwhole := (frameOf_decodesWhole id ins (of_decide_eq_true hp)).whole
  refine ⟨_, hwhole, fun s hs hcap => ?_⟩
  rw [exec_decode_of_idle hs hcap, hwhole, decodeData_success_zero]
  rfl

open Sys2Proof Sys2Proof.Machine in
/-- Settles O16: the window of `stuffFrom` is the lookback of the rule's loop. -/
theorem stuffFollowsTheWindowRule : Obligations.StuffFollowsTheWindowRule := by
  intro s p hs
  simp only [← stuffStep_of_payload]
  rw [← stuffFrom_eq_flatMap]
  exact congrArg Host.Outcome.next (ifIdle_of_idle hs _)

open Sys2Proof in
/-- Settles O18: an insertion takes three payload bytes of its own, and stands behind every `SIG`. -/
theorem stuffedPayloadsHoldNoHeader : Obligations.StuffedPayloadsHoldNoHeader :=
  fun p => ⟨stuff_length_ge p, stuff_length_le p, sigsStuffed_stuff p,
    (sigsStuffed_stuff p).hdrfind_eq_none⟩

open Sys2Proof Sys2Proof.Machine in
/-- Settles O27: the frame fits exactly in the first case, and `encodeInto` writes it and nothing else. -/
theorem encodeFillsTheSendBuffer : Obligations.EncodeFillsTheSendBuffer := by
  rintro s id ins p hwf hidle head rfl frame rfl
  rw [exec_encode_of_idle hidle]
  refine ⟨fun hcap hlen => ⟨_, rfl, ?_⟩, fun hlong => congrArg Host.Outcome.next ?_⟩
  · rw [encodeCommand_of_fits id ins ((frameFits_iff _ p).mpr ⟨hcap, hlen⟩)]
    refine ⟨rfl, ?_, encodeInto_txBytes id ins p hwf, fun a ha => ?_⟩
    · exact (frameOf_length id ins p).trans (Nat.add_comm _ _)
    · exact encodeInto_txByte_of_ge id ins p s (by rw [frameOf_length]; omega)
  · refine encodeCommand_of_not_fits id ins (Bool.eq_false_iff.mpr fun h => ?_)
    obtain ⟨hcap, hlen⟩ := (frameFits_iff _ p).mp h
    omega
end

section
/-!
# The decode side: HDRFIND, DESTUFF and DECODE (42_frame_decode R120 to R135)
-/

namespace Sys2Proof

/-! ## DESTUFF as the loop over the raw region (R123) -/

/-- What the loop of R123 emits for the byte behind the window at offset `j`. The list `w` is the raw region
behind three bytes, so that every raw byte has a window. -/
def destuffStep (w : List Byte) (j : Nat) : List Byte :=
  if w.getD j 0 = 0xFF ∧ w.getD (j + 1) 0 = 0xFF ∧ w.getD (j + 2) 0 = 0xFD
    then [] else [w.getD (j + 3) 0]

theorem destuffFrom_cons (b3 b2 b1 b : Byte) (bs : List Byte) : destuffFrom b3 b2 b1 (b :: bs) =
    destuffStep (b3 :: b2 :: b1 :: b :: bs) 0 ++ destuffFrom b2 b1 b bs := by
  show _ = (if b3 = 0xFF ∧ b2 = 0xFF ∧ b1 = 0xFD then [] else [b]) ++ _
  rw [destuffFrom]
  split <;> rfl

theorem destuffFrom_eq_flatMap (b3 b2 b1 : Byte) (r : List Byte) : destuffFrom b3 b2 b1 r =
    (List.range r.length).flatMap (destuffStep (b3 :: b2 :: b1 :: r)) := by
  induction r generalizing b3 b2 b1 with
  | nil => rfl
  | cons b bs ih =>
    rw [destuffFrom_cons, ih, List.length_cons, List.range_succ_eq_map, List.flatMap_cons, List.flatMap_map]
    rfl

/-- The `00` bytes before the raw region match nothing, so nothing is dropped before the fourth byte (R123). -/
theorem destuffStep_of_raw (r : List Byte) (j : Nat) :
    destuffStep (0 :: 0 :: 0 :: r) j =
      if 3 ≤ j ∧ r.getD (j - 3) 0 = 0xFF ∧ r.getD (j - 2) 0 = 0xFF ∧ r.getD (j - 1) 0 = 0xFD
        then [] else [r.getD j 0] := by
  match j with
  | 0 => simp [destuffStep]
  | 1 => simp [destuffStep]
  | 2 => simp [destuffStep]
  | i + 3 => simp [destuffStep]

/-! ## HDRFIND finds the lowest header (R120) -/

/-- A header stands wholly inside the list at `h`, and at no lower offset. -/
structure LowestHeader (buf : List Byte) (h : Nat) : Prop where
  stands : (buf.drop h).take 4 = Config.hdr
  lowest : ∀ k < h, (buf.drop k).take 4 ≠ Config.hdr

theorem LowestHeader.hdrfindFrom_eq {buf : List Byte} {h : Nat} (hl : LowestHeader buf h) (n : Nat) :
    hdrfindFrom n buf = some (n + h) := by
  induction buf generalizing h n with
  | nil => exact absurd hl.stands (by simp [Config.hdr])
  | cons b bs ih =>
    cases h with
    | zero => exact if_pos hl.stands
    | succ h =>
      have htail : LowestHeader bs h := ⟨hl.stands, fun k hk => hl.lowest (k + 1) (Nat.succ_lt_succ hk)⟩
      have hhead : (b :: bs).take 4 ≠ Config.hdr := hl.lowest 0 h.succ_pos
      rw [hdrfindFrom, if_neg hhead, ih htail, Nat.add_assoc, Nat.add_comm 1]

theorem LowestHeader.hdrfind_eq {buf : List Byte} {h : Nat} (hl : LowestHeader buf h) :
    hdrfind buf = some h := (hl.hdrfindFrom_eq 0).trans (congrArg some h.zero_add)

theorem hdrfind_eq_none {buf : List Byte} (hn : ∀ k, (buf.drop k).take 4 ≠ Config.hdr) :
    hdrfind buf = none :=
  Option.eq_none_iff_forall_not_mem.mpr fun h hf => hn h (hdrfind_some hf)

/-! ## DECODE's answers, check by check (R126, R128, R132) -/

theorem decodeFrameBytes_of_none {buf : List Byte} (h : hdrfind buf = none) :
    decodeFrameBytes buf = .headerNotFound (buf.length - 3) := by
  rw [decodeFrameBytes, h]

theorem decodeFrameBytes_of_some {buf : List Byte} {h : Nat} (hf : hdrfind buf = some h) :
    decodeFrameBytes buf = decodeAt buf h := by
  rw [decodeFrameBytes, hf]

theorem frameLenAt_ge (buf : List Byte) (h : Nat) : 7 ≤ frameLenAt buf h := Nat.le_add_right 7 _

theorem frameLenAt_eq {buf : List Byte} {h L : Nat}
    (hL : L = (buf.getD (h + 5) 0).toNat + 256 * (buf.getD (h + 6) 0).toNat) :
    frameLenAt buf h = 7 + L := by
  rw [frameLenAt, joinU16_toNat, hL]
  rfl

/-- Both Incomplete checks: no frame is shorter than its seven first bytes. -/
theorem decodeAt_of_cut {buf : List Byte} {h : Nat} (hc : buf.length < h + frameLenAt buf h) :
    decodeAt buf h = .incomplete h := by
  rw [decodeAt, if_pos hc, ite_self]

theorem decodeAt_of_small {buf : List Byte} {h : Nat} (hp : h + frameLenAt buf h ≤ buf.length)
    (hs : frameLenAt buf h < 10) : decodeAt buf h = .malformed h := by
  have hge := frameLenAt_ge buf h
  rw [decodeAt, if_neg (by omega), if_neg (by omega), if_pos hs]

theorem WholeFrame.decodeAt_eq {buf : List Byte} {h : Nat} (hw : WholeFrame buf h) : decodeAt buf h =
    (if (fieldsAt buf h).crcCalc = (fieldsAt buf h).crcWire then DecodeResult.success
      else DecodeResult.checksumMismatch) (fieldsAt buf h) := by
  obtain ⟨hpresent, hlong⟩ := hw
  rw [decodeAt, if_neg (by omega), if_neg (by omega), if_neg (by omega), ite_not]
  split <;> rfl

/-- The fields of a frame whose length field is `L`, at their offsets. -/
theorem fieldsAt_eq {buf : List Byte} {h L : Nat} (hflen : frameLenAt buf h = 7 + L) :
    fieldsAt buf h = ⟨h, buf.getD (h + 4) 0, buf.getD (h + 7) 0,
      destuff ((buf.drop (h + 8)).take (L - 3)), crc16 ((buf.drop h).take (5 + L)),
      joinU16 (buf.getD (h + 5 + L) 0) (buf.getD (h + 6 + L) 0)⟩ := by
  rw [fieldsAt, hflen]
  simp only [slice, byteAt, show h + (7 + L) - 2 = h + 5 + L by omega,
    show h + (7 + L) - 1 = h + 6 + L by omega, show h + 5 + L - (h + 8) = L - 3 by omega,
    show h + 5 + L - h = 5 + L by omega]

/-! ## Bytes around a frame (R133) -/

theorem byteAt_surrounded (pre post : List Byte) {fr : List Byte} {i : Nat} (hi : i < fr.length) :
    byteAt (pre ++ fr ++ post) (pre.length + i) = byteAt fr i := by
  simp [byteAt, List.getD_eq_getElem?_getD, List.getElem?_append_right, List.getElem?_append_left hi]

theorem slice_surrounded (pre post : List Byte) {fr : List Byte} {a b : Nat} (hb : b ≤ fr.length) :
    slice (pre ++ fr ++ post) (pre.length + a) (pre.length + b) = slice fr a b := by
  have hpost : b - a - (fr.length - a) = 0 := by omega
  simp [slice, List.drop_append, List.take_append, Nat.add_sub_add_left, hpost]

theorem frameLenAt_surrounded (pre post : List Byte) {fr : List Byte} (hlen : 7 ≤ fr.length) :
    frameLenAt (pre ++ fr ++ post) pre.length = frameLenAt fr 0 := by
  rw [frameLenAt, byteAt_surrounded _ _ (by omega), byteAt_surrounded _ _ (by omega)]
  rfl

theorem WholeFrame.surrounded {fr : List Byte} (hw : WholeFrame fr 0) (pre post : List Byte) :
    WholeFrame (pre ++ fr ++ post) pre.length := by
  obtain ⟨hpresent, hlong⟩ := hw
  have hflen := frameLenAt_surrounded pre post (fr := fr) (by omega)
  constructor
  · simp only [hflen, List.length_append]
    omega
  · rwa [hflen]

theorem WholeFrame.fieldsAt_surrounded {fr : List Byte} (hw : WholeFrame fr 0) (pre post : List Byte) :
    fieldsAt (pre ++ fr ++ post) pre.length = { fieldsAt fr 0 with keep := pre.length } := by
  obtain ⟨hpresent, hlong⟩ := hw
  have hflen := frameLenAt_surrounded pre post (fr := fr) (by omega)
  have hhead := slice_surrounded pre post (fr := fr) (a := 0) (b := frameLenAt fr 0 - 2) (by omega)
  have hcontent := slice_surrounded pre post (fr := fr) (a := 8) (b := frameLenAt fr 0 - 2) (by omega)
  rw [fieldsAt, hflen]
  simp only [Nat.add_sub_assoc (show 2 ≤ frameLenAt fr 0 by omega),
    Nat.add_sub_assoc (show 1 ≤ frameLenAt fr 0 by omega)]
  rw [byteAt_surrounded _ _ (by omega), byteAt_surrounded _ _ (by omega),
    byteAt_surrounded _ _ (by omega), byteAt_surrounded _ _ (by omega), hcontent]
  simp only [Nat.add_zero] at hhead
  rw [hhead, fieldsAt]
  simp only [Nat.zero_add]

/-- A list whose fields DECODE presents with keep 0 begins with a whole frame. -/
theorem wholeFrame_of_fields {fr : List Byte} {f : Fields} (hkeep : f.keep = 0)
    (hd : decodeFrameBytes fr = .success f ∨ decodeFrameBytes fr = .checksumMismatch f) :
    WholeFrame fr 0 ∧ decodeFrameBytes fr = decodeAt fr 0 := by
  cases hh : hdrfind fr with
  | none => simp [decodeFrameBytes_of_none hh] at hd
  | some h =>
    rw [decodeFrameBytes_of_some hh] at hd ⊢
    rcases decodeAt_cases fr h with e | e | ⟨hw, e⟩
    · simp [e] at hd
    · simp [e] at hd
    · have hf : fieldsAt fr h = f := by rcases e with e | e <;> simpa [e] using hd
      obtain rfl : h = 0 := by rw [← hkeep, ← hf]; rfl
      exact ⟨hw, rfl⟩

/-- Success and ChecksumMismatch are told apart by the checksums alone, which do not see the surroundings. -/
theorem decodeAt_surrounded {fr : List Byte} {f : Fields} {answer : Fields → DecodeResult}
    (ha : answer = .success ∨ answer = .checksumMismatch) (hkeep : f.keep = 0) (pre post : List Byte)
    (hd : decodeFrameBytes fr = answer f) :
    decodeAt (pre ++ fr ++ post) pre.length = answer { f with keep := pre.length } := by
  obtain ⟨hw, hat⟩ := wholeFrame_of_fields hkeep
    (ha.imp (hd.trans <| congrFun · f) (hd.trans <| congrFun · f))
  rw [hat, hw.decodeAt_eq] at hd
  rw [(hw.surrounded pre post).decodeAt_eq, hw.fieldsAt_surrounded]
  by_cases hcrc : (fieldsAt fr 0).crcCalc = (fieldsAt fr 0).crcWire
  · simp only [if_pos hcrc] at hd ⊢
    obtain rfl | rfl := ha
    · cases hd; rfl
    · cases hd
  · simp only [if_neg hcrc] at hd ⊢
    obtain rfl | rfl := ha
    · cases hd
    · cases hd; rfl

/-! ## A changed byte in a frame (R135) -/

theorem byteAt_set_of_ne {q i : Nat} (h : q ≠ i) (fr : List Byte) (v : Byte) :
    byteAt (fr.set q v) i = byteAt fr i := by
  simp [byteAt, List.getD_eq_getElem?_getD, h]

theorem byteAt_set_self {q : Nat} {fr : List Byte} (h : q < fr.length) (v : Byte) :
    byteAt (fr.set q v) q = v := by
  simp [byteAt, List.getD_eq_getElem?_getD, h]

theorem crc16_set_ne {l : List Byte} {q : Nat} {v : Byte} (hq : q < l.length) (hv : v ≠ byteAt l q) :
    crc16 (l.set q v) ≠ crc16 l := by
  have hl : l.take q ++ byteAt l q :: l.drop (q + 1) = l := by
    simp [byteAt, List.getD_eq_getElem?_getD, hq]
  intro h
  rw [List.set_eq_take_append_cons_drop, if_pos hq] at h
  exact hv (crc16_byte_injective _ _ (h.trans (congrArg crc16 hl.symm)))

theorem joinU16_inj {a0 a1 b0 b1 : Byte} : joinU16 a0 a1 = joinU16 b0 b1 ↔ a0 = b0 ∧ a1 = b1 := by
  refine ⟨fun h => ?_, fun ⟨h0, h1⟩ => h0 ▸ h1 ▸ rfl⟩
  simpa [le16_joinU16] using congrArg le16 h

theorem frameLenAt_set {q : Nat} (h5 : q ≠ 5) (h6 : q ≠ 6) (fr : List Byte) (v : Byte) :
    frameLenAt (fr.set q v) 0 = frameLenAt fr 0 := by
  rw [frameLenAt, byteAt_set_of_ne h5, byteAt_set_of_ne h6, frameLenAt]

theorem fieldsAt_zero_crcCalc {fr : List Byte} {n : Nat} (h : frameLenAt fr 0 = n + 2) :
    (fieldsAt fr 0).crcCalc = crc16 (fr.take n) := by
  simp [fieldsAt, slice, h]

theorem fieldsAt_zero_crcWire {fr : List Byte} {n : Nat} (h : frameLenAt fr 0 = n + 2) :
    (fieldsAt fr 0).crcWire = joinU16 (byteAt fr n) (byteAt fr (n + 1)) := by
  simp [fieldsAt, h]

/-- A list that carries its checksum in its last two bytes carries a wrong one once a byte is changed: the checksum
sees a change in front of it, and a change in it is not answered by one in front. -/
theorem crc16_ne_carried_of_set {fr : List Byte} {n q : Nat} {v : Byte} (hlen : fr.length = n + 2)
    (hcrc : crc16 (fr.take n) = joinU16 (byteAt fr n) (byteAt fr (n + 1))) (hq : q < n + 2)
    (hv : v ≠ byteAt fr q) : crc16 ((fr.set q v).take n) ≠
      joinU16 (byteAt (fr.set q v) n) (byteAt (fr.set q v) (n + 1)) := by
  rcases Nat.lt_or_ge q n with hlt | hge
  · rw [byteAt_set_of_ne (by omega), byteAt_set_of_ne (by omega), ← hcrc, List.take_set]
    exact crc16_set_ne (by rw [List.length_take]; omega) (by rwa [byteAt_take _ hlt])
  · rw [List.take_set_of_le hge, hcrc, Ne, joinU16_inj]
    rintro ⟨h0, h1⟩
    obtain rfl | rfl : q = n ∨ q = n + 1 := by omega
    · exact hv (h0.trans (byteAt_set_self (by omega) v)).symm
    · exact hv (h1.trans (byteAt_set_self (by omega) v)).symm

theorem frameOf_carries_crc16 (id ins : Byte) {p : List Byte} {n : Nat}
    (hp : (stuff p).length + 3 ≤ 0xFFFF) (hflen : frameLenAt (frameOf id ins p) 0 = n + 2) :
    crc16 ((frameOf id ins p).take n) =
      joinU16 (byteAt (frameOf id ins p) n) (byteAt (frameOf id ins p) (n + 1)) := by
  rw [← fieldsAt_zero_crcCalc hflen, ← fieldsAt_zero_crcWire hflen, fieldsAt_frameOf id ins hp]

/-- Header and length field stand as they were, so the frame is whole, and its checksum and the one it carries no
longer agree. -/
theorem decodeFrameBytes_frameOf_set (id ins : Byte) {p : List Byte} {q : Nat} {v : Byte}
    (hp : (stuff p).length + 3 ≤ 0xFFFF) (hq : q < (frameOf id ins p).length)
    (hv : v ≠ byteAt (frameOf id ins p) q) (h4 : 4 ≤ q) (h5 : q ≠ 5) (h6 : q ≠ 6) :
    ∃ f : Fields, f.keep = 0 ∧ f.crcCalc ≠ f.crcWire ∧
      decodeFrameBytes ((frameOf id ins p).set q v) = .checksumMismatch f := by
  have hlen : (frameOf id ins p).length = (stuff p).length + 8 + 2 := frameOf_length id ins p
  have hflen : frameLenAt (frameOf id ins p) 0 = (stuff p).length + 8 + 2 := frameLenAt_frame id ins _ hp
  have hflen' := (frameLenAt_set h5 h6 (frameOf id ins p) v).trans hflen
  have hhdr : ((frameOf id ins p).set q v).take 4 = Config.hdr := by rw [List.take_set_of_le h4]; rfl
  have hw : WholeFrame ((frameOf id ins p).set q v) 0 :=
    ⟨by rw [hflen', List.length_set, hlen, Nat.zero_add], by omega⟩
  have hcrc : (fieldsAt ((frameOf id ins p).set q v) 0).crcCalc ≠
      (fieldsAt ((frameOf id ins p).set q v) 0).crcWire := by
    rw [fieldsAt_zero_crcCalc hflen', fieldsAt_zero_crcWire hflen']
    exact crc16_ne_carried_of_set hlen (frameOf_carries_crc16 id ins hp hflen) (hlen ▸ hq) hv
  refine ⟨_, rfl, hcrc, ?_⟩
  rw [decodeFrameBytes_of_header hhdr, hw.decodeAt_eq, if_neg hcrc]

end Sys2Proof

namespace Sys2Proof.Machine

theorem exec_hdrfind_of_idle {s : State} (h : s.xstate = .idle) (buf : List Byte) :
    exec (.hdrfind buf) s =
      .next (if buf.length ≤ s.cfg.cap then present .success (hdrfindData buf) s else refuse s) :=
  congrArg Host.Outcome.next (ifIdle_of_idle h _)

theorem hdrfindData_of_some {buf : List Byte} {h : Nat} (hf : hdrfind buf = some h) :
    hdrfindData buf = 1 :: natLe16 h := by rw [hdrfindData, hf]

theorem hdrfindData_of_none {buf : List Byte} (hf : hdrfind buf = none) :
    hdrfindData buf = [0, 0, 0] := by rw [hdrfindData, hf]; rfl

end Sys2Proof.Machine

open Sys2Proof Sys2Proof.Machine in
/-- Settles O17: the window of `destuffFrom` is the lookback of the rule's loop. -/
theorem destuffFollowsTheWindowRule : Obligations.DestuffFollowsTheWindowRule := by
  intro s r hs
  simp only [← destuffStep_of_raw]
  rw [← destuffFrom_eq_flatMap]
  exact congrArg Host.Outcome.next (ifIdle_of_idle hs _)

open Sys2Proof in
/-- Settles O19: the only list STUFF can have made a raw region from is what DESTUFF gives back. -/
theorem destuffInvertsStuff : Obligations.DestuffInvertsStuff := by
  refine ⟨destuff_stuff, fun r => ⟨fun h => ⟨destuff r, h.symm⟩, ?_⟩⟩
  rintro ⟨p, rfl⟩
  rw [destuff_stuff]

open Sys2Proof Sys2Proof.Machine in
/-- Settles O20: the search meets the lowest header first, and what it finds is a header. -/
theorem hdrfindFindsTheLowestHeader : Obligations.HdrfindFindsTheLowestHeader := by
  intro s buf hs
  rw [exec_hdrfind_of_idle hs]
  refine ⟨fun hcap => ⟨fun h hh hlow => ?found, fun hn => ?absent⟩, fun hlong => ?tooLong⟩
  case found =>
    have hf := LowestHeader.hdrfind_eq ⟨hh, hlow⟩
    rw [if_pos hcap, hdrfindData_of_some hf]
    exact ⟨hf, rfl⟩
  case absent =>
    have hf := hdrfind_eq_none hn
    rw [if_pos hcap, hdrfindData_of_none hf]
    exact ⟨hf, rfl⟩
  case tooLong =>
    rw [if_neg (Nat.not_le.mpr hlong)]
    rfl

open Sys2Proof in
/-- Settles O21: DECODE looks at the lowest header, and the frame there is cut, too small, or whole. -/
theorem decodeMakesItsChecksInOrder : Obligations.DecodeMakesItsChecksInOrder := by
  refine fun buf => ⟨fun hn => decodeFrameBytes_of_none (hdrfind_eq_none hn), fun h hh hlow => ?_⟩
  rw [decodeFrameBytes_of_some (LowestHeader.hdrfind_eq ⟨hh, hlow⟩)]
  refine ⟨fun hshort => ?noLength, fun hlen L hL => ?_⟩
  case noLength =>
    have hge := frameLenAt_ge buf h
    exact decodeAt_of_cut (by omega)
  have hflen := frameLenAt_eq hL
  refine ⟨fun hcut => ?cut, fun hfull hsmall => ?small, fun hfull hlong cc cw hcc hcw => ?whole⟩
  case cut => exact decodeAt_of_cut (by omega)
  case small => exact decodeAt_of_small (by omega) (by omega)
  case whole =>
    have hw : WholeFrame buf h := ⟨by omega, by omega⟩
    rw [hw.decodeAt_eq, fieldsAt_eq hflen, hcc, hcw]

open Sys2Proof in
/-- Settles O23: below four bytes there is no room for a header, and from four on the frame's own stands. -/
theorem prefixesOfAFrameAreNotDecoded : Obligations.PrefixesOfAFrameAreNotDecoded := by
  intro id ins p k hp hk
  split
  · next h4 =>
    have hlen : ((frameOf id ins p).take k).length = k := by rw [List.length_take]; omega
    have hnone : hdrfind ((frameOf id ins p).take k) = none :=
      Option.eq_none_iff_forall_not_mem.mpr fun h hf => by
        have := hdrfind_some_length hf
        omega
    rw [decodeFrameBytes_of_none hnone, hlen, Nat.sub_eq_zero_of_le (by omega)]
  · next h4 => exact (frameOf_decodesWhole id ins (of_decide_eq_true hp)).cut k (by omega) hk

open Sys2Proof in
/-- Settles O24: the same fields stand at the frame's place in the longer list, and they decide the answer. -/
theorem surroundingBytesDoNotMatter : Obligations.SurroundingBytesDoNotMatter := by
  intro pre fr post f hkeep _ hf
  rw [decodeFrameBytes_of_some hf]
  exact ⟨decodeAt_surrounded (.inl rfl) hkeep pre post, decodeAt_surrounded (.inr rfl) hkeep pre post⟩

open Sys2Proof in
/-- Settles O25: the flipped byte differs, and a frame with one other byte outside header and length field carries
a wrong checksum. -/
theorem flippedBitsGiveChecksumMismatch : Obligations.FlippedBitsGiveChecksumMismatch := by
  intro id ins p pre post b k hp hk hfr h4 h5 h6
  have hset : pre ++ (b ^^^ (1#8 <<< k)) :: post = (frameOf id ins p).set pre.length (b ^^^ (1#8 <<< k)) := by
    simp [hfr]
  have hbyte : byteAt (frameOf id ins p) pre.length = b := by simp [hfr, byteAt]
  rw [hset]
  exact decodeFrameBytes_frameOf_set id ins (of_decide_eq_true hp) (by simp [hfr])
    (hbyte ▸ xor_one_shiftLeft_ne b hk) h4 h5 h6
end

section
/-!
# Compaction loses no byte of a possible frame (43_session_exchange R145, R146)

What decides is the keep offset of DECODE (R127): it never falls as bytes arrive, and dropping any bytes before it
only shifts the offsets of the answer.
-/

namespace Sys2Proof

/-! ## HDRFIND on a longer list and on a rest (R120) -/

/-- Where a header stands, or before it, there is a lowest one. -/
theorem exists_lowestHeader {buf : List Byte} {k : Nat} (hhdr : (buf.drop k).take 4 = Config.hdr) :
    ∃ h ≤ k, LowestHeader buf h := by
  have hex : ∃ k, (buf.drop k).take 4 = Config.hdr := ⟨k, hhdr⟩
  exact ⟨Nat.find hex, Nat.find_min' hex hhdr, Nat.find_spec hex, fun _ => Nat.find_min hex⟩

theorem hdrfind_eq_some_iff {buf : List Byte} {h : Nat} : hdrfind buf = some h ↔ LowestHeader buf h := by
  refine ⟨fun hf => ⟨hdrfind_some hf, fun k hk hhdr => ?_⟩, LowestHeader.hdrfind_eq⟩
  obtain ⟨h', hle, hlow⟩ := exists_lowestHeader hhdr
  cases hlow.hdrfind_eq.symm.trans hf
  omega

theorem hdrfind_eq_none_iff {buf : List Byte} :
    hdrfind buf = none ↔ ∀ k, (buf.drop k).take 4 ≠ Config.hdr := by
  refine ⟨fun hn k hhdr => ?_, hdrfind_eq_none⟩
  obtain ⟨h, -, hlow⟩ := exists_lowestHeader hhdr
  cases hlow.hdrfind_eq.symm.trans hn

/-- Four bytes that are there do not change as others arrive. -/
theorem take_four_append {b : List Byte} {k : Nat} (hk : k + 4 ≤ b.length) (x : List Byte) :
    ((b ++ x).drop k).take 4 = (b.drop k).take 4 := by
  rw [List.drop_append_of_le_length (by omega),
    List.take_append_of_le_length (by rw [List.length_drop]; omega)]

theorem hdrfind_append_of_some {b : List Byte} {h : Nat} (hf : hdrfind b = some h) (x : List Byte) :
    hdrfind (b ++ x) = some h := by
  have hlen := hdrfind_some_length hf
  obtain ⟨hstands, hlow⟩ := hdrfind_eq_some_iff.mp hf
  refine hdrfind_eq_some_iff.mpr ⟨?_, fun k hk => ?_⟩
  · rwa [take_four_append hlen]
  · rw [take_four_append (by omega)]
    exact hlow k hk

/-- A header that was not there before ends in what arrived. -/
theorem le_of_hdrfind_append {b x : List Byte} {h : Nat} (hn : hdrfind b = none)
    (hf : hdrfind (b ++ x) = some h) : b.length - 3 ≤ h := by
  by_contra hlt
  refine hdrfind_eq_none_iff.mp hn h ?_
  rw [← take_four_append (by omega) x]
  exact hdrfind_some hf

theorem hdrfind_drop_of_none {b : List Byte} (hn : hdrfind b = none) (j : Nat) :
    hdrfind (b.drop j) = none :=
  hdrfind_eq_none_iff.mpr fun k => by
    rw [List.drop_drop]
    exact hdrfind_eq_none_iff.mp hn (j + k)

theorem hdrfind_drop_of_some {b : List Byte} {j i : Nat} (hf : hdrfind b = some (j + i)) :
    hdrfind (b.drop j) = some i := by
  obtain ⟨hstands, hlow⟩ := hdrfind_eq_some_iff.mp hf
  refine hdrfind_eq_some_iff.mpr ⟨?_, fun k hk => ?_⟩
  · rwa [List.drop_drop]
  · rw [List.drop_drop]
    exact hlow (j + k) (by omega)

/-! ## The keep offset (R127) -/

theorem decodeAt_keep (buf : List Byte) (h : Nat) : (decodeAt buf h).keep = h := by
  rcases decodeAt_cases buf h with e | e | ⟨-, e | e⟩ <;> rw [e] <;> rfl

theorem keep_of_hdrfind_some {buf : List Byte} {h : Nat} (hf : hdrfind buf = some h) :
    (decodeFrameBytes buf).keep = h := by
  rw [decodeFrameBytes_of_some hf, decodeAt_keep]

theorem keep_of_hdrfind_none {buf : List Byte} (hn : hdrfind buf = none) :
    (decodeFrameBytes buf).keep = buf.length - 3 := by
  rw [decodeFrameBytes_of_none hn]
  rfl

theorem keep_le_length (buf : List Byte) : (decodeFrameBytes buf).keep ≤ buf.length - 3 := by
  cases hf : hdrfind buf with
  | none => rw [keep_of_hdrfind_none hf]
  | some h =>
    have := hdrfind_some_length hf
    rw [keep_of_hdrfind_some hf]
    omega

/-- As bytes arrive the keep offset never falls. -/
theorem keep_le_keep_append (b x : List Byte) :
    (decodeFrameBytes b).keep ≤ (decodeFrameBytes (b ++ x)).keep := by
  cases hb : hdrfind b with
  | some h => rw [keep_of_hdrfind_some hb, keep_of_hdrfind_some (hdrfind_append_of_some hb x)]
  | none =>
    rw [keep_of_hdrfind_none hb]
    cases hbx : hdrfind (b ++ x) with
    | some h => rw [keep_of_hdrfind_some hbx]; exact le_of_hdrfind_append hb hbx
    | none => rw [keep_of_hdrfind_none hbx, List.length_append]; omega

/-! ## DECODE of a rest -/

theorem byteAt_drop (buf : List Byte) (j i : Nat) : byteAt (buf.drop j) i = byteAt buf (j + i) := by
  simp [byteAt, List.getD_eq_getElem?_getD]

theorem frameLenAt_drop (buf : List Byte) (j i : Nat) :
    frameLenAt (buf.drop j) i = frameLenAt buf (j + i) := by
  simp only [frameLenAt, byteAt_drop, Nat.add_assoc]

theorem fieldsAt_drop (buf : List Byte) (j i : Nat) :
    fieldsAt (buf.drop j) i = { fieldsAt buf (j + i) with keep := i } := by
  obtain ⟨L, hL⟩ := Nat.exists_eq_add_of_le (frameLenAt_ge buf (j + i))
  rw [fieldsAt_eq hL, fieldsAt_eq ((frameLenAt_drop buf j i).trans hL)]
  simp [List.drop_drop, List.getD_eq_getElem?_getD, Nat.add_assoc]

theorem decodeAt_drop (buf : List Byte) (j i : Nat) :
    decodeAt (buf.drop j) i = (decodeAt buf (j + i)).rebase j := by
  have hge := frameLenAt_ge buf (j + i)
  have hsub : j + i - j = i := Nat.add_sub_cancel_left j i
  have hflen := frameLenAt_drop buf j i
  by_cases hcut : buf.length < j + i + frameLenAt buf (j + i)
  · rw [decodeAt_of_cut hcut, decodeAt_of_cut (by rw [hflen, List.length_drop]; omega),
      DecodeResult.rebase, hsub]
  have hpresent : i + frameLenAt (buf.drop j) i ≤ (buf.drop j).length := by
    rw [hflen, List.length_drop]; omega
  by_cases hsmall : frameLenAt buf (j + i) < 10
  · rw [decodeAt_of_small (Nat.le_of_not_lt hcut) hsmall, decodeAt_of_small hpresent (hflen ▸ hsmall),
      DecodeResult.rebase, hsub]
  · have hw : WholeFrame buf (j + i) := ⟨Nat.le_of_not_lt hcut, Nat.le_of_not_lt hsmall⟩
    have hw' : WholeFrame (buf.drop j) i := ⟨hpresent, hflen ▸ Nat.le_of_not_lt hsmall⟩
    rw [hw.decodeAt_eq, hw'.decodeAt_eq, fieldsAt_drop]
    have hkeep : (fieldsAt buf (j + i)).keep - j = i := hsub
    split <;> rw [DecodeResult.rebase, hkeep]

/-- Bytes before the keep offset do not matter. -/
theorem decodeFrameBytes_drop {buf : List Byte} {j : Nat} (hj : j ≤ (decodeFrameBytes buf).keep) :
    decodeFrameBytes (buf.drop j) = (decodeFrameBytes buf).rebase j := by
  cases hf : hdrfind buf with
  | none =>
    rw [decodeFrameBytes_of_none hf, decodeFrameBytes_of_none (hdrfind_drop_of_none hf j),
      DecodeResult.rebase, List.length_drop, Nat.sub_right_comm]
  | some h =>
    rw [keep_of_hdrfind_some hf] at hj
    obtain ⟨i, rfl⟩ := Nat.exists_eq_add_of_le hj
    rw [decodeFrameBytes_of_some hf, decodeFrameBytes_of_some (hdrfind_drop_of_some hf), decodeAt_drop]

theorem rebase_keep (r : DecodeResult) (j : Nat) : (r.rebase j).keep = r.keep - j := by
  cases r <;> rfl

theorem drop_keep_append (b x : List Byte) :
    b.drop (decodeFrameBytes b).keep ++ x = (b ++ x).drop (decodeFrameBytes b).keep := by
  have := keep_le_length b
  rw [List.drop_append_of_le_length (by omega)]

end Sys2Proof

open Sys2Proof in
/-- Settles O26: the keep offset never falls as bytes arrive, and the bytes before it do not matter to DECODE. -/
theorem resynchronisationLosesNothing : Obligations.ResynchronisationLosesNothing := by
  intro b x k hopen
  obtain rfl : (decodeFrameBytes b).keep = k := by rcases hopen with e | e <;> rw [e] <;> rfl
  have hle := keep_le_keep_append b x
  refine ⟨fun h hf => ?_, ?_⟩
  · rwa [keep_of_hdrfind_some hf] at hle
  · rw [drop_keep_append, decodeFrameBytes_drop hle]
end

section
/-!
# An exchange on a line that goes quiet (43_session_exchange R147, R148, R157)
-/

namespace Sys2Proof.Machine

theorem exchange_txBytes {id ins : Byte} {p : List Byte} {wait : Word40} {s t : State} (hs : Inv s)
    (h : exchange id ins p wait s = some t) :
    t.txBytes = frameOf id ins p ∧ t.tx.len = (frameOf id ins p).length := by
  have htx : t.tx = (beginExchange id ins p wait s).tx := by rw [(exchange_settles h).eq]; rfl
  refine ⟨?_, by rw [htx]; rfl⟩
  rw [State.txBytes, htx]
  exact beginExchange_txBytes id ins p wait hs.txWf

end Sys2Proof.Machine

open Sys2Proof Sys2Proof.Machine in
/-- Settles O35: the plan is used up before the passes are, and the exchange that ends writes what `Exchanged` says. -/
theorem exchangeEndsOnAQuietLine : Obligations.ExchangeEndsOnAQuietLine := by
  intro s id ins p wait hs hp hq
  obtain ⟨t, ht, hpolicy, hx⟩ := exchange_once (id := id) (ins := ins) (wait := wait) hs hp hq 1
  obtain ⟨hbytes, hlen⟩ := exchange_txBytes (s := setAttempt 1 s) (hs.congr rfl rfl rfl) ht
  have hdevice : t.device = s.device := by rw [(exchange_settles ht).eq]; rfl
  exact ⟨presentOutcome t, execXchg_of_exchange hs.idle hp ht, hx.inv.idle, hx.outcome, rfl, hx.req, hpolicy,
    hx.sent, hbytes, hlen, hdevice, hx.frame.congr rfl⟩
end

section
/-!
# One pass of the drain loop (43_session_exchange R142, R145, R151, R156)

REFILL and the overflow test move bytes from the channel to the end of the buffer, whatever the channel does; step 7d
then ends the exchange on a closed answer of DECODE and drops the bytes before the keep offset on an open one.
-/

namespace Sys2Proof

/-- The answers of DECODE after which the exchange goes on (R148 step 7d). -/
def DecodeResult.isOpen : DecodeResult → Bool
  | .headerNotFound _ => true
  | .incomplete _ => true
  | .checksumMismatch _ => false
  | .success _ => false
  | .malformed _ => false

end Sys2Proof

namespace Sys2Proof.Machine

/-! ## Refilling (R142, R144) -/

theorem State.rxBytes_congr {s t : State} (h : t.rx = s.rx) : t.rxBytes = s.rxBytes := by
  rw [State.rxBytes, h, State.rxBytes]

theorem appendRx_rxBytes {s : State} (hm : Memory.wf s.rx.mem) (b : Byte) :
    (appendRx b s).rxBytes = s.rxBytes ++ [b] :=
  Memory.readBytes_writeBytes_append hm s.rx.len [b]

/-- `t` has received the bytes `new` after `s`: they moved from what is coming to the end of the buffer. -/
structure Moved (new : List Byte) (s t : State) : Prop where
  bytes : t.rxBytes = s.rxBytes ++ new
  coming : s.line.coming = new ++ t.line.coming

theorem Moved.of_none {s t : State} (hrx : t.rx = s.rx) (hline : t.line.coming = s.line.coming) :
    Moved [] s t :=
  ⟨by rw [State.rxBytes_congr hrx, List.append_nil], hline.symm⟩

theorem Moved.trans {new new' : List Byte} {s t u : State} (h : Moved new s t) (h' : Moved new' t u) :
    Moved (new ++ new') s u where
  bytes := by rw [h'.bytes, h.bytes, List.append_assoc]
  coming := by rw [h.coming, h'.coming, List.append_assoc]

/-- A byte that was read moves to the end of the buffer. -/
theorem moved_appendRx {s : State} {b : Byte} (hm : Memory.wf s.rx.mem)
    (hread : (readOne (readyNow s).2).1 = some b) :
    Moved [b] s (appendRx b (readOne (readyNow s).2).2) := by
  refine ⟨appendRx_rxBytes (s := (readOne (readyNow s).2).2) hm b, ?_⟩
  rcases s.line.tick.readOne_coming with ⟨c, hc, e⟩ | ⟨hn, -⟩
  · obtain rfl : c = b := Option.some.inj (hc.symm.trans hread)
    exact s.line.tick_coming.symm.trans e
  · exact absurd (hn.symm.trans hread) nofun

theorem refillUpTo_moved (k : Nat) {s : State} (hm : Memory.wf s.rx.mem) :
    ∃ new, new.length ≤ k ∧ Moved new s (refillUpTo k s) := by
  induction k generalizing s with
  | zero => exact ⟨[], le_rfl, .of_none rfl rfl⟩
  | succ k ih =>
    rw [refillUpTo]
    split
    · exact ⟨[], Nat.zero_le _, .of_none rfl rfl⟩
    · split
      · split
        · next t ht =>
          have hnone : s.line.readyNow.2.readOne.1 = none := congrArg Prod.fst ht
          have hstays : s.line.readyNow.2.readOne.2.coming = s.line.coming := by
            rcases s.line.tick.readOne_coming with ⟨c, hc, -⟩ | ⟨-, e⟩
            · exact absurd (hnone.symm.trans hc) nofun
            · exact e.trans s.line.tick_coming
          obtain rfl : (readOne (readyNow s).2).2 = t := congrArg Prod.snd ht
          exact ⟨[], Nat.zero_le _, .of_none rfl hstays⟩
        · next b t ht =>
          obtain rfl : (readOne (readyNow s).2).2 = t := congrArg Prod.snd ht
          have hfirst := moved_appendRx hm (congrArg Prod.fst ht)
          obtain ⟨new, hlen, hrest⟩ := ih (s := appendRx b (readOne (readyNow s).2).2) (Memory.write_wf hm _ _)
          exact ⟨b :: new, Nat.succ_le_succ hlen, hfirst.trans hrest⟩
      · exact ⟨[], Nat.zero_le _, .of_none rfl s.line.tick_coming⟩

theorem overflowTest_moved (s : State) : Moved [] s (overflowTest s).2 := by
  rcases overflowTest_cases s with ⟨-, e⟩ | ⟨-, e⟩ <;> rw [e]
  · exact .of_none rfl s.line.tick_coming
  · exact .of_none rfl rfl

theorem passInput_moved {s : State} (hm : Memory.wf s.rx.mem) :
    ∃ new, new.length ≤ quota s.cfg.cap ∧ Moved new s (passInput s) := by
  obtain ⟨new, hlen, h⟩ := refillUpTo_moved (quota s.cfg.cap) (s := enterDraining s) hm
  have hall := h.trans (overflowTest_moved _)
  rw [List.append_nil] at hall
  exact ⟨new, hlen, hall.bytes, hall.coming⟩

theorem passInput_xstate (s : State) : (passInput s).xstate = .draining := by
  rw [(passInput_receives s).eq]; rfl

/-! ## Acting on DECODE's answer (R148 step 7d) -/

/-- A compaction of a canonical buffer keeps the bytes from `k` on, whatever stands beyond `RXLEN` (R145). -/
theorem compact_rxBytes_of_wf {k : Nat} {s : State} (hm : Memory.wf s.rx.mem) (hk : k ≤ s.rx.len) :
    (compact k s).rxBytes = s.rxBytes.drop k := by
  by_cases h0 : k = 0
  · subst h0; rfl
  · have hback := Memory.readBytes_writeBytes (Memory.zeroTo_wf hm s.rx.len) 0
      (s.rx.mem.readBytes k (s.rx.len - k))
    rw [Memory.readBytes_length] at hback
    rw [compact, if_neg h0, State.rxBytes, hback, State.rxBytes, Memory.readBytes_drop _ _ _ _ hk, Nat.zero_add]

theorem actOn_xstate (r : DecodeResult) (s : State) :
    (actOn r s).xstate = if r.isOpen then s.xstate else .idle := by
  cases r <;> simp [actOn, DecodeResult.isOpen]

theorem actOn_resp_of_open {r : DecodeResult} (h : r.isOpen = true) (s : State) :
    (actOn r s).resp = s.resp := by
  cases r with
  | headerNotFound k => exact compact_resp s k
  | incomplete k => exact compact_resp s k
  | checksumMismatch | success | malformed => cases h

theorem actOn_rx_of_closed {r : DecodeResult} (h : r.isOpen = false) (s : State) :
    (actOn r s).rx = s.rx := by
  cases r with
  | headerNotFound | incomplete => cases h
  | checksumMismatch | success | malformed => rfl

theorem actOn_rx_of_open {r : DecodeResult} (h : r.isOpen = true) (s : State) :
    (actOn r s).rx = (compact r.keep s).rx := by
  cases r with
  | headerNotFound | incomplete => rfl
  | checksumMismatch | success | malformed => cases h

/-- An open answer leaves the bytes from its keep offset on. -/
theorem actOn_rxBytes_of_open {s : State} (hm : Memory.wf s.rx.mem)
    (h : (decodeFrameBytes s.rxBytes).isOpen = true) :
    (actOn (decodeFrameBytes s.rxBytes) s).rxBytes = s.rxBytes.drop (decodeFrameBytes s.rxBytes).keep := by
  have hk := keep_le_length s.rxBytes
  rw [State.rxBytes_length] at hk
  rw [← compact_rxBytes_of_wf hm (by omega)]
  exact State.rxBytes_congr (actOn_rx_of_open h s)

theorem classify_ne_none {malformed : Code} (hm : malformed ≠ .none) (id : Byte) (f : Fields) :
    classify malformed id f ≠ .none := by
  unfold classify
  split
  · exact hm
  · split
    · nofun
    · split <;> nofun

theorem actOn_outcome_ne_none {r : DecodeResult} {s : State} (h : r.isOpen = false)
    (hm : s.params.malformed ≠ .none) : (actOn r s).resp.outcome ≠ .none := by
  cases r with
  | headerNotFound | incomplete => cases h
  | malformed => exact hm
  | checksumMismatch => nofun
  | success f => exact classify_ne_none hm _ f

/-- With an open answer the flags say whether a header was found (R148 step 7d). -/
theorem actOn_flags_of_open {s : State} (h : (decodeFrameBytes s.rxBytes).isOpen = true) :
    (actOn (decodeFrameBytes s.rxBytes) s).flags =
      if (hdrfind s.rxBytes).isSome then ⟨true, .partialFrame⟩ else { s.flags with rstate := .seeking } := by
  cases hf : hdrfind s.rxBytes with
  | none => rw [decodeFrameBytes_of_none hf]; simp [actOn]
  | some k =>
    rw [decodeFrameBytes_of_some hf] at h ⊢
    rcases decodeAt_cases s.rxBytes k with e | e | ⟨-, e | e⟩ <;> rw [e] at h ⊢
    · rfl
    · cases h
    · cases h
    · cases h

end Sys2Proof.Machine

open Sys2Proof Sys2Proof.Machine in
/-- Settles O48: the pass moves bytes into the buffer and then overflows, or acts on an answer that is closed, or open
with or without a header. -/
theorem drainPassEndsOrKeepsAHeader : Obligations.DrainPassEndsOrKeepsAHeader := by
  rintro s _ hm hmal - rfl
  obtain ⟨new, hlen, hmoved⟩ := passInput_moved hm
  have hcoming := hmoved.coming
  rw [← drainPass_line] at hcoming
  refine ⟨new, _, hlen, rfl, hcoming, ?_⟩
  rw [← hmoved.bytes]
  have hwf := (passInput_appends s).wf hm
  have heq := (passInput_receives s).eq
  rcases drainPass_cases s with ⟨-, e⟩ | e <;> rw [e]
  · exact .inl ⟨rfl, nofun, rfl⟩
  cases hopen : (decodeFrameBytes (passInput s).rxBytes).isOpen with
  | false =>
    refine .inl ⟨?_, actOn_outcome_ne_none hopen (by rw [heq]; exact hmal), ?_⟩
    · rw [actOn_xstate, hopen]; rfl
    · exact State.rxBytes_congr (actOn_rx_of_closed hopen _)
  | true =>
    have hkept := actOn_rxBytes_of_open hwf hopen
    have hflags := actOn_flags_of_open hopen
    refine .inr ⟨?_, ?_, ?_⟩
    · rw [actOn_xstate, if_pos hopen, passInput_xstate]
    · rw [actOn_resp_of_open hopen, heq]; rfl
    cases hf : hdrfind (passInput s).rxBytes with
    | none =>
      rw [keep_of_hdrfind_none hf] at hkept
      rw [hf] at hflags
      exact .inl ⟨hflags.trans (by rw [heq]; rfl), rfl, hkept⟩
    | some h =>
      rw [keep_of_hdrfind_some hf] at hkept
      rw [hf] at hflags
      exact .inr ⟨h, hflags, rfl, hkept, hkept ▸ hdrfind_some hf⟩
end

section
/-!
# An exchange whose response arrives in pieces (43_session_exchange R146, R148, R155, R159)

No time passes between the calls, and no piece comes later than the wait allows. Then at each pass the bytes in the
buffer and those coming are the whole stream, but for some dropped before DECODE's keep offset, and the loop ends in
one of three ways: `PassEnds`.
-/

namespace Sys2Proof

/-! ## When DECODE's answer is open (R126) -/

theorem decodeAt_isOpen_iff {buf : List Byte} {h : Nat} :
    (decodeAt buf h).isOpen = true ↔ buf.length < h + frameLenAt buf h := by
  refine ⟨fun hopen => ?_, fun hcut => by rw [decodeAt_of_cut hcut]; rfl⟩
  by_contra hpresent
  by_cases hsmall : frameLenAt buf h < 10
  · rw [decodeAt_of_small (by omega) hsmall] at hopen
    cases hopen
  · have hw : WholeFrame buf h := ⟨by omega, by omega⟩
    rw [hw.decodeAt_eq] at hopen
    split at hopen <;> cases hopen

theorem byteAt_append {b : List Byte} {i : Nat} (hi : i < b.length) (x : List Byte) :
    byteAt (b ++ x) i = byteAt b i := List.getD_append _ _ _ _ hi

theorem frameLenAt_append {b : List Byte} {h : Nat} (hh : h + 7 ≤ b.length) (x : List Byte) :
    frameLenAt (b ++ x) h = frameLenAt b h := by
  rw [frameLenAt, byteAt_append (by omega), byteAt_append (by omega), frameLenAt]

/-- An answer that ends the exchange is about a frame all of whose bytes are there, whatever follows them. -/
theorem frame_present_of_closed {b x : List Byte} {h : Nat} (hclosed : (decodeFrameBytes b).isOpen = false)
    (hf : hdrfind (b ++ x) = some h) : h + frameLenAt (b ++ x) h ≤ b.length := by
  cases hb : hdrfind b with
  | none =>
    rw [decodeFrameBytes_of_none hb] at hclosed
    cases hclosed
  | some h' =>
    cases (hdrfind_append_of_some hb x).symm.trans hf
    rw [decodeFrameBytes_of_some hb] at hclosed
    have hpresent : ¬ b.length < h + frameLenAt b h := fun hcut => by
      rw [decodeAt_isOpen_iff.mpr hcut] at hclosed
      cases hclosed
    have hge := frameLenAt_ge b h
    rw [frameLenAt_append (by omega)]
    omega

/-- Later bytes move the keep offset only where no header has been found, and there three bytes are kept. -/
theorem keep_append_eq_or_few (b x : List Byte) :
    (decodeFrameBytes (b ++ x)).keep = (decodeFrameBytes b).keep ∨
    b.length - (decodeFrameBytes b).keep ≤ 3 := by
  cases hb : hdrfind b with
  | some h => exact .inl (by rw [keep_of_hdrfind_some hb, keep_of_hdrfind_some (hdrfind_append_of_some hb x)])
  | none => exact .inr (by rw [keep_of_hdrfind_none hb]; omega)

end Sys2Proof

namespace Sys2Proof.Machine

section

variable {s t : State} (h : Settles s t)
include h

theorem Settles.params : t.params = s.params := by rw [h.eq]
theorem Settles.req : t.req = s.req := by rw [h.eq]
theorem Settles.cfg : t.cfg = s.cfg := by rw [h.eq]

end

theorem Midway.rxWf {s : State} (h : Midway s) : Memory.wf s.rx.mem := h.inv.rxWf

/-! ## The channel -/

/-- The channel is steady and will go quiet, and what is still on its way is an end of `later`. -/
structure Transport.Plays (later : List Chunk) (l : Transport) : Prop where
  steady : l.Steady
  quiet : l.goesQuiet
  rest : l.future <:+ later

/-- A wait that is long enough brings the next piece. -/
theorem Transport.Steady.readyWithin_of_chunk {l : Transport} (h : l.Steady) (ha : l.avail = []) {c : Chunk}
    {cs : List Chunk} (hf : l.future = c :: cs) {t : Word40} (hgap : c.gap ≤ t.toNat) :
    l.readyWithin t = (true, { l with avail := c.bytes, future := cs }) := by
  simp only [Transport.readyWithin, h.tick, ha, List.isEmpty_nil, if_true, Transport.await, hf, if_pos hgap]

theorem Transport.Steady.readyWithin_of_nothing {l : Transport} (h : l.Steady) (hq : l.goesQuiet)
    (ha : l.avail = []) (hf : l.future = []) (t : Word40) : l.readyWithin t = (false, l) := by
  simp only [Transport.readyWithin, h.tick, ha, List.isEmpty_nil, if_true, Transport.await, hf,
    show l.babble = [] from hq]

/-- A wait loses nothing, and is in vain only when the stream is over. -/
theorem Transport.Plays.readyWithin {later : List Chunk} {l : Transport} (h : l.Plays later) (ha : l.avail = [])
    {t : Word40} (hgaps : ∀ c ∈ later, c.gap ≤ t.toNat) :
    (l.readyWithin t).2.Plays later ∧ (l.readyWithin t).2.coming = l.coming ∧
    ((l.readyWithin t).1 = false → l.coming = []) := by
  cases hf : l.future with
  | nil =>
    rw [h.steady.readyWithin_of_nothing h.quiet ha hf]
    exact ⟨h, rfl, fun _ => by rw [Transport.coming, ha, hf]; rfl⟩
  | cons c cs =>
    have hrest : c :: cs <:+ later := hf ▸ h.rest
    rw [h.steady.readyWithin_of_chunk ha hf (hgaps c (hrest.subset List.mem_cons_self))]
    refine ⟨⟨⟨h.steady.lag, h.steady.balk⟩, h.quiet, (List.suffix_cons c cs).trans hrest⟩, ?_, nofun⟩
    simp [Transport.coming, ha, hf]

/-! ## The operations of a pass on a steady channel -/

theorem overflowTest_of_steady {s : State} (h : s.line.Steady) :
    overflowTest s = (decide (s.rx.len = s.cfg.cap ∧ s.line.avail ≠ []), s) := by
  rcases overflowTest_cases s with ⟨hfull, e⟩ | ⟨hroom, e⟩
  · rw [e, readyNow_of_steady h]
    cases ha : s.line.avail <;> simp [hfull]
  · simp [e, hroom]

theorem refill_of_steady {s : State} (h : s.line.Steady) (hc : s.rx.len ≤ s.cfg.cap) :
    ∃ n, refill (enterDraining s) = moveBytes n (enterDraining s) :=
  ⟨_, refillUpTo_of_steady (quota s.cfg.cap) (s := enterDraining s) h hc⟩

theorem passInput_of_steady {s : State} (h : s.line.Steady) (hc : s.rx.len ≤ s.cfg.cap) :
    ∃ n, passInput s = moveBytes n (enterDraining s) := by
  obtain ⟨n, e⟩ := refill_of_steady h hc
  have hsteady : (moveBytes n (enterDraining s)).line.Steady := ⟨h.lag, h.balk⟩
  exact ⟨n, by rw [passInput, e, overflowTest_of_steady hsteady]⟩

/-- A pass overflows exactly when it has filled the buffer and a byte is pending (R144). -/
theorem drainPass_of_steady {s : State} (h : s.line.Steady) (hc : s.rx.len ≤ s.cfg.cap) :
    drainPass s = if (passInput s).rx.len = s.cfg.cap ∧ (passInput s).line.avail ≠ []
      then raiseOutcome .oversizedData (passInput s)
      else actOn (decodeFrameBytes (passInput s).rxBytes) (passInput s) := by
  obtain ⟨n, e⟩ := refill_of_steady h hc
  have hsteady : (moveBytes n (enterDraining s)).line.Steady := ⟨h.lag, h.balk⟩
  have htest := overflowTest_of_steady hsteady
  rw [← e] at htest
  have hinput : passInput s = refill (enterDraining s) := by rw [passInput, htest]
  have hcap : (refill (enterDraining s)).cfg.cap = s.cfg.cap := by rw [e]; rfl
  rw [drainPass, htest, hinput, hcap]
  by_cases hfull : (refill (enterDraining s)).rx.len = s.cfg.cap ∧ (refill (enterDraining s)).line.avail ≠ []
  · rw [decide_eq_true hfull, if_pos hfull]
  · rw [decide_eq_false hfull, if_neg hfull]

/-- After a pass that does not end the exchange DECODE's answer was open. -/
theorem drainPass_of_running {s : State} (hrun : (drainPass s).xstate ≠ .idle) :
    (decodeFrameBytes (passInput s).rxBytes).isOpen = true ∧
    drainPass s = actOn (decodeFrameBytes (passInput s).rxBytes) (passInput s) := by
  rcases drainPass_cases s with ⟨-, e⟩ | e
  · rw [e] at hrun
    exact absurd rfl hrun
  · rw [e, actOn_xstate] at hrun
    exact ⟨by_contra fun hclosed => hrun (if_neg hclosed), e⟩

theorem moreAfterPass_rx (s : State) : (moreAfterPass s).2.rx = s.rx := by
  unfold moreAfterPass
  split <;> rfl

theorem moreAfterPass_resp (s : State) : (moreAfterPass s).2.resp = s.resp := by
  rw [(moreAfterPass_receives s).eq]

theorem moreAfterPass_flags (s : State) : (moreAfterPass s).2.flags = s.flags := by
  rw [(moreAfterPass_receives s).eq]

/-- Step 7e on a steady channel: a pending byte, or a wait. -/
theorem moreAfterPass_of_steady {s : State} (h : s.line.Steady) :
    moreAfterPass s = if s.line.avail = [] then readyWithin s else (true, s) := by
  rw [moreAfterPass, readyNow_of_steady h]
  cases s.line.avail <;> rfl

/-! ## The stream -/

/-- The exchange that began to receive in `s₀` has no outcome yet, and the bytes in the buffer and those coming are
`stream`. -/
structure Arriving (s₀ : State) (later : List Chunk) (stream : List Byte) (s : State) : Prop where
  midway : Midway s
  settles : Settles s₀ s
  resp : s.resp = s₀.resp
  plays : s.line.Plays later
  bytes : s.rxBytes ++ s.line.coming = stream

section

variable {s₀ s t : State} {later : List Chunk} {stream : List Byte}

theorem Arriving.passInput (h : Arriving s₀ later stream s) : Arriving s₀ later stream (passInput s) := by
  obtain ⟨n, e⟩ := passInput_of_steady h.plays.steady h.midway.rxLen
  obtain ⟨new, -, hmoved⟩ := passInput_moved h.midway.rxWf
  exact {
    midway := h.midway.passInput
    settles := (h.settles.trans (enterDraining_settles s)).trans (passInput_receives s).settles
    resp := by rw [(passInput_receives s).eq]; exact h.resp
    plays := by rw [e]; exact ⟨⟨h.plays.steady.lag, h.plays.steady.balk⟩, h.plays.quiet, h.plays.rest⟩
    bytes := by rw [hmoved.bytes, List.append_assoc, ← hmoved.coming]; exact h.bytes }

/-- An open answer drops the bytes before its keep offset from the stream (R145). -/
theorem Arriving.actOn (h : Arriving s₀ later stream s) (hopen : (decodeFrameBytes s.rxBytes).isOpen = true) :
    Arriving s₀ later (stream.drop (decodeFrameBytes s.rxBytes).keep)
      (actOn (decodeFrameBytes s.rxBytes) s) := by
  obtain ⟨-, -, -, -, -, hline, -⟩ := actOn_fields (decodeFrameBytes s.rxBytes) s
  exact {
    midway := h.midway.actOn
    settles := h.settles.trans (actOn_settles _ s)
    resp := (actOn_resp_of_open hopen s).trans h.resp
    plays := hline ▸ h.plays
    bytes := by rw [actOn_rxBytes_of_open h.midway.rxWf hopen, hline, drop_keep_append, h.bytes] }

/-- Waiting keeps the stream, and is in vain only when all of it is in the buffer (R148 step 7e). -/
theorem Arriving.moreAfterPass (hgaps : ∀ c ∈ later, c.gap ≤ s₀.req.wait.toNat)
    (h : Arriving s₀ later stream s) : Arriving s₀ later stream (moreAfterPass s).2 ∧
      ((moreAfterPass s).1 = false → s.line.coming = []) := by
  have hline : (Machine.moreAfterPass s).2.line.Plays later ∧
      (Machine.moreAfterPass s).2.line.coming = s.line.coming ∧
      ((Machine.moreAfterPass s).1 = false → s.line.coming = []) := by
    rw [moreAfterPass_of_steady h.plays.steady]
    split
    · next ha => exact h.plays.readyWithin ha (h.settles.req ▸ hgaps)
    · exact ⟨h.plays, rfl, nofun⟩
  obtain ⟨hplays, hcoming, hvain⟩ := hline
  refine ⟨{
    midway := h.midway.moreAfterPass
    settles := h.settles.trans (moreAfterPass_receives s).settles
    resp := (moreAfterPass_resp s).trans h.resp
    plays := hplays
    bytes := ?_ }, hvain⟩
  rw [State.rxBytes_congr (moreAfterPass_rx s), hcoming, h.bytes]

/-! ## The drain loop (R148 step 7) -/

/-- Of the stream the first `j` bytes are gone, none of them at or beyond its keep offset; as long as that is not
reached the buffer holds at most `n` bytes. -/
structure Receiving (s₀ : State) (later : List Chunk) (stream : List Byte) (j n : Nat) (s : State) : Prop
    extends Arriving s₀ later (stream.drop j) s where
  before : j ≤ (decodeFrameBytes stream).keep
  few : j = (decodeFrameBytes stream).keep ∨ s.rx.len ≤ n

/-- The three ways in which the drain loop ends in `t`. The last pass stands at `v` before it acts on the overflow
test or on DECODE's answer. -/
inductive PassEnds (v t : State) : Prop
  /-- The buffer is full and a byte is pending (R144). -/
  | overflow (full : v.rx.len = v.cfg.cap) (pending : v.line.avail ≠ []) (eq : t = raiseOutcome .oversizedData v)
  /-- DECODE's answer ends the exchange (R148 step 7d). -/
  | closed (fits : v.rx.len = v.cfg.cap → v.line.avail = [])
      (answer : (decodeFrameBytes v.rxBytes).isOpen = false) (eq : t = actOn (decodeFrameBytes v.rxBytes) v)
  /-- The stream is over, and nothing more comes (R148 step 8). -/
  | silence (exhausted : v.line.coming = []) (answer : (decodeFrameBytes v.rxBytes).isOpen = true)
      (eq : t = endQuiet (moreAfterPass (actOn (decodeFrameBytes v.rxBytes) v)).2)

variable {j n : Nat}

theorem Receiving.keep_drop (h : Receiving s₀ later stream j n s) :
    (decodeFrameBytes (s.rxBytes ++ s.line.coming)).keep = (decodeFrameBytes stream).keep - j := by
  rw [h.bytes, decodeFrameBytes_drop h.before, rebase_keep]

/-- A pass adds a quota of bytes at most (R141, R142). -/
theorem Receiving.passInput (h : Receiving s₀ later stream j n s) :
    Receiving s₀ later stream j (n + quota s₀.cfg.cap) (passInput s) where
  toArriving := h.toArriving.passInput
  before := h.before
  few := by
    obtain ⟨new, hlen, hmoved⟩ := passInput_moved h.midway.rxWf
    have hbytes := congrArg List.length hmoved.bytes
    rw [List.length_append, State.rxBytes_length, State.rxBytes_length] at hbytes
    rw [h.settles.cfg] at hlen
    exact h.few.imp_right fun hfew => by omega

/-- An open answer drops no byte at or beyond the keep offset of the stream, and all before it or all but three
(R146). -/
theorem Receiving.actOn (h : Receiving s₀ later stream j n s)
    (hopen : (decodeFrameBytes s.rxBytes).isOpen = true) :
    ∃ j', Receiving s₀ later stream j' 3 (actOn (decodeFrameBytes s.rxBytes) s) := by
  have hkeep := h.keep_drop
  have hmono := keep_le_keep_append s.rxBytes s.line.coming
  have hbefore := h.before
  have harrive := h.toArriving.actOn hopen
  rw [List.drop_drop] at harrive
  refine ⟨_, harrive, by omega, ?_⟩
  rcases keep_append_eq_or_few s.rxBytes s.line.coming with heq | hfew
  · exact .inl (by omega)
  · right
    rwa [← State.rxBytes_length, actOn_rxBytes_of_open h.midway.rxWf hopen, List.length_drop]

/-- A pass that leaves `XSTATE` Idle overflowed, or found DECODE's answer closed. -/
theorem Arriving.ends_of_idle (h : Arriving s₀ later stream s) (hidle : (drainPass s).xstate = .idle) :
    PassEnds (Machine.passInput s) (drainPass s) := by
  have hcap : (Machine.passInput s).cfg.cap = s.cfg.cap := by rw [(passInput_receives s).eq]; rfl
  rw [drainPass_of_steady h.plays.steady h.midway.rxLen, ← hcap] at hidle ⊢
  split at hidle
  · next hfull => rw [if_pos hfull]; exact .overflow hfull.1 hfull.2 rfl
  · next hroom =>
    rw [if_neg hroom]
    refine .closed (fun hfull => by_contra fun ha => hroom ⟨hfull, ha⟩) ?_ rfl
    rw [actOn_xstate, passInput_xstate] at hidle
    exact Bool.eq_false_iff.mpr fun hopen => by rw [if_pos hopen] at hidle; cases hidle

/-- A pass that goes on, with a wait in vain after it, has seen the end of the stream. -/
theorem Arriving.ends_of_quiet (hgaps : ∀ c ∈ later, c.gap ≤ s₀.req.wait.toNat) (h : Arriving s₀ later stream s)
    (hrun : (drainPass s).xstate ≠ .idle) (hvain : (Machine.moreAfterPass (drainPass s)).1 = false) :
    PassEnds (Machine.passInput s) (endQuiet (Machine.moreAfterPass (drainPass s)).2) := by
  obtain ⟨hopen, e⟩ := drainPass_of_running hrun
  have hafter := h.passInput.actOn hopen
  rw [← e] at hafter
  have hover := (hafter.moreAfterPass hgaps).2 hvain
  rw [drainPass_line] at hover
  exact .silence hover hopen (by rw [e])

/-- The loop goes on with some more bytes dropped. -/
theorem Receiving.loop (hgaps : ∀ c ∈ later, c.gap ≤ s₀.req.wait.toNat) (h : Receiving s₀ later stream j 3 s)
    (hrun : (drainPass s).xstate ≠ .idle) :
    ∃ i, Receiving s₀ later stream i 3 (Machine.moreAfterPass (drainPass s)).2 := by
  obtain ⟨hopen, e⟩ := drainPass_of_running hrun
  obtain ⟨i, hi⟩ := h.passInput.actOn hopen
  rw [e]
  refine ⟨i, (hi.toArriving.moreAfterPass hgaps).1, hi.before, ?_⟩
  rw [moreAfterPass_rx]
  exact hi.few

/-- What the drain loop ends with, when the stream arrives in time. -/
theorem Receiving.drain (hgaps : ∀ c ∈ later, c.gap ≤ s₀.req.wait.toNat) {passes : Nat}
    (h : Receiving s₀ later stream j 3 s) (ht : drain passes s = some t) :
    ∃ i v, Receiving s₀ later stream i (3 + quota s₀.cfg.cap) v ∧ PassEnds v t := by
  obtain ⟨u, ⟨i, hu⟩, ⟨hidle, rfl⟩ | ⟨hrun, hvain, rfl⟩⟩ :=
    drain_induct (P := fun u => ∃ i, Receiving s₀ later stream i 3 u)
      (fun u ⟨i, hu⟩ hrun _ => hu.loop hgaps hrun) ht ⟨j, h⟩
  · exact ⟨i, _, hu.passInput, hu.ends_of_idle hidle⟩
  · exact ⟨i, _, hu.passInput, hu.ends_of_quiet hgaps hrun hvain⟩

end

/-! ## The exchange -/

/-- The channel once a frame has been sent and these pieces are on their way, the last of the planned replies. -/
def Transport.awaiting (frame : List Byte) (chunks : List Chunk) (l : Transport) : Transport :=
  { l with sent := l.sent ++ [frame], replies := [], future := chunks }

theorem Transport.send_of_silent {l : Transport} (h : l.silent) {chunks : List Chunk}
    (hr : l.replies = [⟨true, chunks⟩]) (frame : List Byte) :
    l.send frame = (true, l.awaiting frame chunks) := by
  obtain ⟨-, hfuture, hlag, hbalk, -⟩ := h
  have hsteady : l.Steady := ⟨hlag, hbalk⟩
  rw [Transport.send, hsteady.tick, Transport.emit, hr]
  simp [hfuture, Transport.awaiting]

/-- The state in which the drain loop starts (R148 step 6). -/
def arrivalState (id ins : Byte) (p : List Byte) (wait : Word40) (s : State) : State :=
  (readyWithin (enterSent (sentState id ins p wait s))).2

section

variable {s : State} (hs : Inv s) {p : List Byte} (hp : s.takes p) (hsilent : s.line.silent) {c : Chunk}
  {later : List Chunk} (hreplies : s.line.replies = [⟨true, c :: later⟩]) (id ins : Byte) {wait : Word40}
include hs hp hsilent hreplies

/-- An exchange whose reply begins within the wait goes on to the drain loop, with all of the reply to come. -/
theorem exchange_of_reply (hgap : c.gap ≤ wait.toNat) :
    exchange id ins p wait s =
      drain (passBound (arrivalState id ins p wait s)) (arrivalState id ins p wait s) ∧
    Arriving (arrivalState id ins p wait s) later (((c :: later).map (·.bytes)).flatten)
      (arrivalState id ins p wait s) := by
  have hsend := Transport.send_of_silent hsilent hreplies (beginExchange id ins p wait s).txBytes
  obtain ⟨havail, -, hlag, hbalk, hbabble⟩ := hsilent
  have hsent : sendFrame (beginExchange id ins p wait s) = (true, sentState id ins p wait s) :=
    Prod.ext (congrArg Prod.fst hsend :) rfl
  have hline : (sentState id ins p wait s).line =
      s.line.awaiting (beginExchange id ins p wait s).txBytes (c :: later) := congrArg Prod.snd hsend
  have hwait := Transport.Steady.readyWithin_of_chunk
    (l := s.line.awaiting (beginExchange id ins p wait s).txBytes (c :: later)) ⟨hlag, hbalk⟩ havail rfl hgap
  rw [← hline] at hwait
  have hready : readyWithin (enterSent (sentState id ins p wait s)) =
      (true, arrivalState id ins p wait s) := Prod.ext (congrArg Prod.fst hwait :) rfl
  have harrived : (arrivalState id ins p wait s).line =
      { (sentState id ins p wait s).line with avail := c.bytes, future := later } := congrArg Prod.snd hwait
  refine ⟨by simp only [exchange, hsent, receive, hready], ?_⟩
  exact {
    midway := (hs.sentState id ins wait hp).congr rfl
    settles := .refl _
    resp := rfl
    plays := by rw [harrived, hline]; exact ⟨⟨hlag, hbalk⟩, hbabble, List.suffix_rfl⟩
    bytes := by rw [harrived]; rfl }

/-- An accepted XCHG whose reply arrives in time ends as the drain loop does. -/
theorem xchg_of_reply (hgaps : ∀ c' ∈ c :: later, c'.gap ≤ wait.toNat) :
    ∃ t i v, exec (.xchg id ins p wait) s = .next (presentOutcome t) ∧
      Receiving (arrivalState id ins p wait (setAttempt 1 s)) later (((c :: later).map (·.bytes)).flatten) i
        (3 + quota s.cfg.cap) v ∧ PassEnds v t := by
  obtain ⟨hgap, hlater⟩ := List.forall_mem_cons.mp hgaps
  obtain ⟨hx, harrive⟩ := exchange_of_reply (s := setAttempt 1 s) (hs.congr rfl rfl rfl) hp hsilent hreplies
    id ins hgap
  obtain ⟨-, -, -, -, hquiet⟩ := hsilent
  obtain ⟨t, ht, -⟩ := exchange_ends (s := setAttempt 1 s) hquiet id ins p wait
  have hstart : Receiving (arrivalState id ins p wait (setAttempt 1 s)) later
      (((c :: later).map (·.bytes)).flatten) 0 3 (arrivalState id ins p wait (setAttempt 1 s)) :=
    ⟨harrive, Nat.zero_le _, .inr (Nat.zero_le _)⟩
  obtain ⟨i, v, hv, hend⟩ := hstart.drain hlater (hx.symm.trans ht)
  exact ⟨t, i, v, execXchg_of_exchange hs.idle hp ht, hv, hend⟩

end

end Sys2Proof.Machine
end

section
/-!
# A frame as the response: in pieces behind noise, cut short, malformed, or too long (43_session_exchange R144, R153,
R155, R159)
-/

namespace Sys2Proof

/-- `fr` begins with a header, and its length field gives its own length. -/
structure FrameShaped (fr : List Byte) : Prop where
  header : fr.take 4 = Config.hdr
  length : frameLenAt fr 0 = fr.length

theorem frameOf_shaped (id ins : Byte) {p : List Byte} (hp : payloadFits p = true) :
    FrameShaped (frameOf id ins p) :=
  ⟨rfl, (frameLenAt_frame id ins _ (of_decide_eq_true hp)).trans (frameOf_length id ins p).symm⟩

section

variable {fr : List Byte} (hfr : FrameShaped fr)
include hfr

theorem FrameShaped.hdrfind_eq : hdrfind fr = some 0 := hdrfind_of_header hfr.header

theorem FrameShaped.keep : (decodeFrameBytes fr).keep = 0 := keep_of_hdrfind_some hfr.hdrfind_eq

/-- Of a part of a frame DECODE drops nothing. -/
theorem FrameShaped.keep_take (k : Nat) : (decodeFrameBytes (fr.take k)).keep = 0 := by
  have hle := keep_le_keep_append (fr.take k) (fr.drop k)
  rw [List.take_append_drop, hfr.keep] at hle
  exact Nat.le_zero.mp hle

theorem FrameShaped.closed : (decodeFrameBytes fr).isOpen = false := by
  rw [decodeFrameBytes_of_header hfr.header, Bool.eq_false_iff, Ne, decodeAt_isOpen_iff, hfr.length]
  omega

/-- Until all of the frame behind it is there, no part of a list ends the exchange. -/
theorem FrameShaped.all_present {kept b x : List Byte} (hf : hdrfind (kept ++ fr) = some kept.length)
    (hb : b ++ x = kept ++ fr) (hclosed : (decodeFrameBytes b).isOpen = false) : b = kept ++ fr ∧ x = [] := by
  have hlen := frame_present_of_closed (x := x) hclosed (hb ▸ hf)
  have hshape := frameLenAt_drop (kept ++ fr) kept.length 0
  rw [List.drop_left, hfr.length, Nat.add_zero] at hshape
  rw [hb, ← hshape] at hlen
  have hall := congrArg List.length hb
  simp only [List.length_append] at hall
  obtain rfl : x = [] := List.eq_nil_of_length_eq_zero (by omega)
  exact ⟨by rw [← hb, List.append_nil], rfl⟩

end

/-- DECODE makes of a frame behind kept bytes what it makes of the frame, but for the offset. -/
theorem decodeFrameBytes_behind {fr kept : List Byte} (hf : hdrfind (kept ++ fr) = some kept.length) :
    decodeFrameBytes fr = (decodeFrameBytes (kept ++ fr)).rebase kept.length := by
  have h := decodeFrameBytes_drop (buf := kept ++ fr) (j := kept.length) (keep_of_hdrfind_some hf).ge
  rwa [List.drop_left] at h

theorem rebase_isOpen (r : DecodeResult) (j : Nat) : (r.rebase j).isOpen = r.isOpen := by
  cases r <;> rfl

end Sys2Proof

namespace Sys2Proof.Machine

/-! ## The registers at the end -/

/-- The response registers do not depend on the offset. -/
theorem actOn_rebase_resp (r : DecodeResult) (k : Nat) (s : State) :
    (actOn (r.rebase k) s).resp = (actOn r s).resp := by
  cases r with
  | headerNotFound | incomplete => exact (actOn_resp_of_open rfl s).trans (actOn_resp_of_open rfl s).symm
  | malformed | checksumMismatch | success => rfl

theorem endQuiet_resp (s : State) :
    (endQuiet s).resp = { s.resp with outcome := quietOutcome s.flags } := rfl

section

variable {s v : State} {id ins : Byte} {p : List Byte} {wait : Word40} {later : List Chunk}
  {stream : List Byte} {j n : Nat}
  (h : Receiving (arrivalState id ins p wait (setAttempt 1 s)) later stream j n v)
include h

theorem Receiving.resp_cleared : v.resp.cleared := by
  rw [h.resp]
  exact ⟨rfl, rfl, rfl, rfl, rfl, rfl, rfl⟩

theorem Receiving.params_eq : v.params = s.params := h.settles.params

theorem Receiving.cap_eq : v.cfg.cap = s.cfg.cap := congrArg CfgRegs.cap h.settles.cfg

/-- What the exchange ends with when the line goes quiet (R148 step 8). -/
theorem Receiving.silence {t : State} (hopen : (decodeFrameBytes v.rxBytes).isOpen = true)
    (ht : t = endQuiet (Machine.moreAfterPass (Machine.actOn (decodeFrameBytes v.rxBytes) v)).2) :
    t.rxBytes = v.rxBytes.drop (decodeFrameBytes v.rxBytes).keep ∧
    t.resp = { v.resp with outcome := quietOutcome t.flags } ∧
    t.flags = if (hdrfind v.rxBytes).isSome then ⟨true, .partialFrame⟩ else ⟨false, .seeking⟩ := by
  have hflags : t.flags = (Machine.actOn (decodeFrameBytes v.rxBytes) v).flags := by
    rw [ht]; exact moreAfterPass_flags _
  have hresp : t.resp = { v.resp with outcome := quietOutcome t.flags } := by
    rw [hflags, ht, endQuiet_resp, moreAfterPass_resp, moreAfterPass_flags, actOn_resp_of_open hopen]
  refine ⟨?_, hresp, ?_⟩
  · rw [← actOn_rxBytes_of_open h.midway.rxWf hopen, ht]
    exact State.rxBytes_congr (moreAfterPass_rx _)
  · rw [hflags, actOn_flags_of_open hopen]
    cases hf : hdrfind v.rxBytes with
    | some k => rfl
    | none => rw [h.midway.seeking_of_none hf]

theorem Receiving.req_id : v.req.id = id := by rw [h.settles.req]; rfl

end

/-- Once the buffer is as long as the stream nothing is pending. -/
theorem Arriving.nothing_pending {s₀ v : State} {later : List Chunk} {stream : List Byte}
    (h : Arriving s₀ later stream v) (hlen : stream.length ≤ v.rx.len) : v.line.avail = [] := by
  have hall := congrArg List.length h.bytes
  rw [List.length_append, State.rxBytes_length] at hall
  exact (List.append_eq_nil_iff.mp (List.eq_nil_of_length_eq_zero (by omega) : v.line.coming = [])).1

/-- What the buffer holds and what is coming are the two parts of the stream. -/
theorem Arriving.bytes_take {s₀ v : State} {later : List Chunk} {stream : List Byte}
    (h : Arriving s₀ later stream v) : v.rxBytes = stream.take v.rx.len ∧ v.line.coming = stream.drop v.rx.len := by
  rw [← h.bytes, ← State.rxBytes_length, List.take_left, List.drop_left]
  exact ⟨rfl, rfl⟩

theorem Transport.coming_of_no_future {l : Transport} (h : l.future = []) : l.coming = l.avail := by
  rw [Transport.coming, h, List.map_nil, List.flatten_nil, List.append_nil]

section

variable {s : State} (hs : Inv s) {p : List Byte} (hp : s.takes p) (hsilent : s.line.silent)
include hs hp hsilent

/-! ## One frame, behind noise (R159) -/

/-- A frame behind bytes that leave its header the first is read to its last byte, and the exchange ends with DECODE's
answer about it. -/
theorem xchg_of_frame {fr pre : List Byte} (hfr : FrameShaped fr) {chunks : List Chunk}
    (hreplies : s.line.replies = [⟨true, chunks⟩]) (hstream : (chunks.map (·.bytes)).flatten = pre ++ fr)
    (hfirst : hdrfind (pre ++ fr) = some pre.length) (hroom : fr.length ≤ s.cfg.cap) (id ins : Byte) {wait : Word40}
    (hgaps : ∀ c ∈ chunks, c.gap ≤ wait.toNat) :
    ∃ t v kept, exec (.xchg id ins p wait) s = .next t ∧ t.resp = (actOn (decodeFrameBytes fr) v).resp ∧
      v.resp.cleared ∧ v.params = s.params ∧ v.req.id = id ∧ kept <:+ pre ∧ t.rxBytes = kept ++ fr := by
  cases chunks with
  | nil => rw [← hstream] at hfirst; cases hfirst
  | cons c later =>
  obtain ⟨t, i, v, ht, hv, hend⟩ := xchg_of_reply hs hp hsilent hreplies id ins hgaps
  rw [hstream] at hv
  have hbefore := hv.before
  have hfew := hv.few
  rw [keep_of_hdrfind_some hfirst] at hbefore hfew
  have hdrop : (pre ++ fr).drop i = pre.drop i ++ fr := List.drop_append_of_le_length hbefore
  have hbytes := hv.bytes
  rw [hdrop] at hbytes
  have hf : hdrfind (pre.drop i ++ fr) = some (pre.drop i).length := by
    rw [← hdrop]
    exact hdrfind_drop_of_some (hfirst.trans (congrArg some (by rw [List.length_drop]; omega)))
  cases hend with
  | overflow full pending eq =>
    have hcap := hs.cap_ge
    have hquota : 3 + quota s.cfg.cap < s.cfg.cap := by rw [quota]; omega
    refine absurd (hv.nothing_pending ?_) pending
    rw [full, hv.cap_eq, hdrop, List.length_append, List.length_drop]
    rw [full, hv.cap_eq] at hfew
    omega
  | silence exhausted answer eq =>
    rw [exhausted, List.append_nil] at hbytes
    have hclosed := hfr.closed
    rw [decodeFrameBytes_behind hf, rebase_isOpen, ← hbytes, answer] at hclosed
    cases hclosed
  | closed fits answer eq =>
    obtain ⟨hall, -⟩ := hfr.all_present hf hbytes answer
    refine ⟨_, v, pre.drop i, ht, ?_, hv.resp_cleared, hv.params_eq, hv.req_id, List.drop_suffix _ _, ?_⟩
    · rw [decodeFrameBytes_behind hf, actOn_rebase_resp, ← hall, eq]
      rfl
    · rw [← hall]
      exact State.rxBytes_congr (eq ▸ actOn_rx_of_closed answer v)

/-! ## The beginning of a frame, and silence (R155) -/

/-- A frame that is cut short stays in the buffer, and the exchange ends as the flags say. -/
theorem xchg_of_cut_frame {fr : List Byte} (hfr : FrameShaped fr) {k g : Nat} (hk : k < fr.length)
    (hroom : k ≤ s.cfg.cap) (hreplies : s.line.replies = [⟨true, [⟨g, fr.take k⟩]⟩]) (id ins : Byte)
    {wait : Word40} (hgap : g ≤ wait.toNat) :
    ∃ t, exec (.xchg id ins p wait) s = .next t ∧ t.resp.cleared ∧ t.rxBytes = fr.take k ∧
      t.resp.outcome = quietOutcome t.flags ∧
      t.flags = if (hdrfind (fr.take k)).isSome then ⟨true, .partialFrame⟩ else ⟨false, .seeking⟩ := by
  obtain ⟨t, i, v, ht, hv, hend⟩ := xchg_of_reply hs hp hsilent hreplies id ins (by simpa using hgap)
  have hkeep := hfr.keep_take k
  simp only [List.map_cons, List.map_nil, List.flatten_cons, List.flatten_nil, List.append_nil] at hv
  obtain rfl : i = 0 := Nat.le_zero.mp (hkeep ▸ hv.before)
  have hbytes : v.rxBytes ++ v.line.coming = fr.take k := hv.bytes
  cases hend with
  | overflow full pending eq =>
    refine absurd (hv.nothing_pending ?_) pending
    rw [full, hv.cap_eq, List.drop_zero, List.length_take]
    omega
  | closed fits answer eq =>
    exfalso
    have hall : v.rxBytes ++ (v.line.coming ++ fr.drop k) = [] ++ fr := by
      rw [← List.append_assoc, hbytes, List.take_append_drop, List.nil_append]
    have hrest := (List.append_eq_nil_iff.mp (hfr.all_present (kept := []) hfr.hdrfind_eq hall answer).2).2
    rw [List.drop_eq_nil_iff] at hrest
    omega
  | silence exhausted answer eq =>
    rw [exhausted, List.append_nil] at hbytes
    obtain ⟨hrx, hresp, hflags⟩ := hv.silence answer eq
    rw [hbytes, hkeep, List.drop_zero] at hrx
    rw [hbytes] at hflags
    refine ⟨_, ht, ?_, hrx, congrArg RespRegs.outcome hresp, hflags⟩
    show t.resp.cleared
    rw [hresp]
    exact hv.resp_cleared

/-! ## More bytes than the buffer holds (R144) -/

/-- A frame that would not fit the buffer, or fills it in one burst, with more bytes coming ends the exchange in
OversizedData: the first `CAP` bytes stand in the buffer. -/
theorem xchg_of_long_stream {chunks : List Chunk} (hreplies : s.line.replies = [⟨true, chunks⟩])
    {stream : List Byte} (hstream : (chunks.map (·.bytes)).flatten = stream) (hhdr : stream.take 4 = Config.hdr)
    (hlong : s.cfg.cap < stream.length)
    (hflen : s.cfg.cap < frameLenAt stream 0 ∨ (s.cfg.cap = frameLenAt stream 0 ∧ chunks.tail = []))
    (id ins : Byte) {wait : Word40} (hgaps : ∀ c ∈ chunks, c.gap ≤ wait.toNat) :
    ∃ t, exec (.xchg id ins p wait) s = .next t ∧ t.resp.outcome = .oversizedData ∧ t.resp.cleared ∧
      t.rx.len = s.cfg.cap ∧ t.rxBytes = stream.take s.cfg.cap ∧ t.line.coming = stream.drop s.cfg.cap ∧
      t.line.future <:+ chunks.tail := by
  cases chunks with
  | nil => rw [← hstream] at hhdr; cases hhdr
  | cons c later =>
  obtain ⟨t, i, v, ht, hv, hend⟩ := xchg_of_reply hs hp hsilent hreplies id ins hgaps
  rw [hstream] at hv
  obtain rfl : i = 0 := Nat.le_zero.mp (keep_of_hdrfind_some (hdrfind_of_header hhdr) ▸ hv.before)
  have harrive : Arriving _ later stream v := hv.toArriving
  obtain ⟨hbytes, hcoming⟩ := harrive.bytes_take
  have hfits : v.rx.len ≤ s.cfg.cap := hv.midway.rxLen.trans_eq hv.cap_eq
  cases hend with
  | overflow full pending eq =>
    rw [full.trans hv.cap_eq] at hbytes hcoming
    subst eq
    exact ⟨_, ht, rfl, hv.resp_cleared, full.trans hv.cap_eq, hbytes, hcoming, hv.plays.rest⟩
  | closed fits answer eq =>
    exfalso
    have hpresent := frame_present_of_closed (x := v.line.coming) answer (h := 0)
      (by rw [harrive.bytes]; exact hdrfind_of_header hhdr)
    rw [harrive.bytes, State.rxBytes_length, Nat.zero_add] at hpresent
    obtain hover | ⟨heq, hburst⟩ := hflen
    · omega
    · have hfull : v.rx.len = s.cfg.cap := by omega
      have hfuture : v.line.future = [] := List.suffix_nil.mp (hburst ▸ hv.plays.rest)
      rw [Transport.coming_of_no_future hfuture, fits (hfull.trans hv.cap_eq.symm), eq_comm,
        List.drop_eq_nil_iff] at hcoming
      omega
  | silence exhausted answer eq =>
    rw [exhausted, eq_comm, List.drop_eq_nil_iff] at hcoming
    omega

end

/-! ## The classes of frames (R152, R153) -/

/-- What DECODE makes of a frame, with the checksum as the frame's own last two bytes give it. -/
theorem decodeFrameBytes_frameOf (id ins : Byte) {p fr : List Byte} {c : Word16} (hp : payloadFits p = true)
    (hfr : fr = frameOf id ins p) (hc : c = crc16 (fr.take (fr.length - 2))) :
    decodeFrameBytes fr = .success ⟨0, id, ins, p, c, c⟩ := by
  rw [hc, hfr, frameOf_take_head]
  exact (frameOf_decodesWhole id ins (of_decide_eq_true hp)).whole

/-- The seven bytes before the content region, with a length field below 3, and as many bytes as it says. -/
theorem short_frame_shaped (rid len : Byte) {pad : List Byte} (hpad : pad.length = len.toNat) :
    FrameShaped ([0xFF, 0xFF, 0xFD, 0x00, rid, len, 0x00] ++ pad) :=
  ⟨rfl, (frameLenAt_eq (L := len.toNat) (by simp)).trans (by simp [hpad]; omega)⟩

theorem decodeFrameBytes_short_frame (rid len : Byte) {pad : List Byte} (hpad : pad.length = len.toNat)
    (hlen : len.toNat < 3) :
    decodeFrameBytes ([0xFF, 0xFF, 0xFD, 0x00, rid, len, 0x00] ++ pad) = .malformed 0 := by
  have hshape := short_frame_shaped rid len hpad
  rw [decodeFrameBytes_of_header hshape.header]
  refine decodeAt_of_small (by rw [hshape.length]; omega) ?_
  rw [hshape.length]
  simp only [List.length_append, List.length_cons, List.length_nil]
  omega

end Sys2Proof.Machine

open Sys2Proof Sys2Proof.Machine in
/-- Settles O40: no pass drops a byte of the frame, and DECODE ends the exchange only when all of it is there. -/
theorem piecesOfAStatusFrameDecodeAsOne : Obligations.PiecesOfAStatusFrameDecodeAsOne := by
  intro s id ins rid st err p params pre fr wait chunks c hs hp hsilent hreplies hfr hc hstream hfirst hgaps
    hfits hroom
  have hshape : FrameShaped fr := hfr ▸ frameOf_shaped rid st hfits
  obtain ⟨t, v, kept, ht, hresp, -, -, hid, hkept, hbytes⟩ :=
    xchg_of_frame hs hp hsilent hshape hreplies hstream hfirst hroom id ins hgaps
  refine ⟨t, kept, ht, ?_, hkept, hbytes⟩
  rw [hresp, decodeFrameBytes_frameOf rid st hfits hfr hc, actOn_status_resp, hid]

open Sys2Proof Sys2Proof.Machine in
/-- Settles O45: every proper part of a frame is decoded as Incomplete or as no header, and nothing of it is dropped. -/
theorem partialFrameThenSilence : Obligations.PartialFrameThenSilence := by
  intro s id ins rid st p q wait g k hs hp hsilent hfits hk hroom hgap hreplies
  obtain ⟨t, ht, hcleared, hbytes, houtcome, hflags⟩ :=
    xchg_of_cut_frame hs hp hsilent (frameOf_shaped rid st hfits) hk hroom hreplies id ins hgap
  refine ⟨t, ht, hcleared, hbytes, fun h4 => ?header, fun h4 => ?noHeader⟩
  case header =>
    have hf : hdrfind ((frameOf rid st q).take k) = some 0 :=
      hdrfind_of_header (by rw [List.take_take, min_eq_left h4]; rfl)
    rw [hf] at hflags
    exact ⟨by rw [houtcome, hflags]; rfl, hflags⟩
  case noHeader =>
    have hf : hdrfind ((frameOf rid st q).take k) = none :=
      Option.eq_none_iff_forall_not_mem.mpr fun h hf => by
        have := hdrfind_some_length hf
        rw [List.length_take] at this
        omega
    rw [hf] at hflags
    exact ⟨by rw [houtcome, hflags]; rfl, hflags⟩

open Sys2Proof Sys2Proof.Machine in
/-- Settles O46: both are read as one frame, and DECODE or CLASSIFY finds it malformed. -/
theorem malformedFramesEndWithTheParameter : Obligations.MalformedFramesEndWithTheParameter := by
  intro s id ins rid st len p pad fr wait g c hs hp hsilent hgap
  have hcap := hs.cap_ge
  refine ⟨fun hlen hpad hreplies => ?short, fun hfr hc hreplies => ?empty⟩
  case short =>
    have hshape := short_frame_shaped rid len hpad
    obtain ⟨t, v, -, ht, hresp, hcleared, hparams, -⟩ := xchg_of_frame (pre := []) hs hp hsilent hshape hreplies
      (by simp) hshape.hdrfind_eq (by simp; omega) id ins (by simpa using hgap)
    rw [decodeFrameBytes_short_frame rid len hpad hlen] at hresp
    exact ⟨t, ht, by rw [hresp, ← hparams]; rfl, by rw [hresp]; exact hcleared⟩
  case empty =>
    have hshape : FrameShaped fr := hfr ▸ frameOf_shaped rid st (p := []) rfl
    obtain ⟨t, v, -, ht, hresp, -, hparams, -⟩ := xchg_of_frame (pre := []) hs hp hsilent hshape hreplies
      (by simp) hshape.hdrfind_eq (by rw [hfr, frameOf_length]; exact le_trans (by decide) hcap) id ins
      (by simpa using hgap)
    rw [decodeFrameBytes_frameOf rid st rfl hfr hc] at hresp
    exact ⟨t, ht, by rw [hresp, ← hparams]; rfl⟩

open Sys2Proof Sys2Proof.Machine in
/-- Settles O42: the buffer fills before DECODE has a whole frame, or with the frame's last byte. -/
theorem overflowPreemptsAValidFrame : Obligations.OverflowPreemptsAValidFrame := by
  intro s id ins rid st p q extra stream wait g chunks hs hp hsilent
  refine ⟨fun hreplies hgap hfits hfull hextra => ?burst,
    fun hreplies hgaps hstream hhdr hdeclared hlong => ?pieces⟩
  case burst =>
    have hmore : 0 < extra.length := List.length_pos_iff.mpr hextra
    have hflen : frameLenAt (frameOf rid st q ++ extra) 0 = s.cfg.cap := by
      rw [frameOf, List.append_assoc, frameLenAt_frame rid st _ (of_decide_eq_true hfits),
        ← frameOf_length rid st q, hfull]
    obtain ⟨t, ht, houtcome, hcleared, hlen, hbytes, hcoming, hfuture⟩ := xchg_of_long_stream hs hp hsilent hreplies
      (stream := frameOf rid st q ++ extra) (by simp) rfl (by rw [List.length_append]; omega)
      (.inr ⟨hflen.symm, rfl⟩) id ins (by simpa using hgap)
    rw [Transport.coming_of_no_future (List.suffix_nil.mp hfuture), ← hfull, List.drop_left] at hcoming
    rw [← hfull, List.take_left] at hbytes
    exact ⟨t, ht, houtcome, hcleared.1, hlen, hbytes, hcoming⟩
  case pieces =>
    obtain ⟨t, ht, houtcome, hcleared, hlen, hbytes, hcoming, -⟩ := xchg_of_long_stream hs hp hsilent hreplies hstream
      hhdr hlong (.inl (by rw [frameLenAt_eq rfl]; simpa using hdeclared)) id ins hgaps
    exact ⟨t, ht, houtcome, hcleared, hlen, hbytes, hcoming⟩
end

section
/-!
# The Retry/Timeout Policy (44_retry_policy R171 to R178)

No exchange reads the retry registers or the host's last result, so an attempt of XCHGR is the bare XCHG but for these
two.
-/

namespace Sys2Proof.Machine

/-! ## Registers no exchange reads -/

/-- The state with other retry registers and another result to the host. -/
def State.withPolicyResult (r : PolicyRegs) (a : Result) (s : State) : State :=
  { s with policy := r, result := a }

section

variable (r : PolicyRegs) (a : Result)

@[simp] theorem State.withPolicyResult_xstate (s : State) : (s.withPolicyResult r a).xstate = s.xstate := rfl

@[simp] theorem State.withPolicyResult_rx (s : State) : (s.withPolicyResult r a).rx = s.rx := rfl

@[simp] theorem State.withPolicyResult_cfg (s : State) : (s.withPolicyResult r a).cfg = s.cfg := rfl

theorem readyNow_withPolicyResult (s : State) :
    readyNow (s.withPolicyResult r a) = ((readyNow s).1, (readyNow s).2.withPolicyResult r a) := rfl

theorem refillUpTo_withPolicyResult (k : Nat) (s : State) :
    refillUpTo k (s.withPolicyResult r a) = (refillUpTo k s).withPolicyResult r a := by
  induction k generalizing s with
  | zero => rfl
  | succ k ih =>
    have hread : readOne (readyNow (s.withPolicyResult r a)).2 =
      ((readOne (readyNow s).2).1, (readOne (readyNow s).2).2.withPolicyResult r a) := rfl
    rw [refillUpTo, refillUpTo, hread, readyNow_withPolicyResult, State.withPolicyResult_rx,
      State.withPolicyResult_cfg]
    by_cases hfull : s.rx.len = s.cfg.cap
    · rw [if_pos hfull, if_pos hfull]
    · rw [if_neg hfull, if_neg hfull]
      by_cases hready : (readyNow s).1 = true
      case neg => rw [if_neg hready, if_neg hready]
      case pos =>
        rw [if_pos hready, if_pos hready]
        rcases readOne (readyNow s).2 with ⟨_ | b, t⟩
        · rfl
        · exact ih (appendRx b t)

theorem overflowTest_withPolicyResult (s : State) :
    overflowTest (s.withPolicyResult r a) =
      ((overflowTest s).1, (overflowTest s).2.withPolicyResult r a) := by
  unfold overflowTest
  rw [State.withPolicyResult_rx, State.withPolicyResult_cfg]
  split <;> rfl

theorem compact_withPolicyResult (k : Nat) (s : State) :
    compact k (s.withPolicyResult r a) = (compact k s).withPolicyResult r a := by
  unfold compact
  split <;> rfl

theorem actOn_withPolicyResult (d : DecodeResult) (s : State) :
    actOn d (s.withPolicyResult r a) = (actOn d s).withPolicyResult r a := by
  cases d with
  | headerNotFound k => exact congrArg noteSeeking (compact_withPolicyResult r a k s)
  | incomplete k => exact congrArg notePartial (compact_withPolicyResult r a k s)
  | malformed | checksumMismatch | success => rfl

theorem drainPass_withPolicyResult (s : State) :
    drainPass (s.withPolicyResult r a) = (drainPass s).withPolicyResult r a := by
  have hrefill : refill (enterDraining (s.withPolicyResult r a)) =
      (refill (enterDraining s)).withPolicyResult r a :=
    refillUpTo_withPolicyResult r a _ (enterDraining s)
  rw [drainPass, drainPass, hrefill, overflowTest_withPolicyResult]
  rcases overflowTest (refill (enterDraining s)) with ⟨_ | _, t⟩
  · exact actOn_withPolicyResult r a _ t
  · rfl

theorem moreAfterPass_withPolicyResult (s : State) :
    moreAfterPass (s.withPolicyResult r a) =
      ((moreAfterPass s).1, (moreAfterPass s).2.withPolicyResult r a) := by
  unfold moreAfterPass
  rw [readyNow_withPolicyResult]
  split <;> rfl

theorem drain_withPolicyResult (n : Nat) (s : State) :
    drain n (s.withPolicyResult r a) = (drain n s).map (State.withPolicyResult r a) := by
  induction n generalizing s with
  | zero => rfl
  | succ n ih =>
    rw [drain, drain, drainPass_withPolicyResult, moreAfterPass_withPolicyResult,
      State.withPolicyResult_xstate]
    by_cases hidle : (drainPass s).xstate = .idle
    · rw [if_pos hidle, if_pos hidle, Option.map_some]
    · rw [if_neg hidle, if_neg hidle]
      rcases moreAfterPass (drainPass s) with ⟨_ | _, t⟩
      · rfl
      · exact ih t

theorem receive_withPolicyResult (s : State) :
    receive (s.withPolicyResult r a) = (receive s).map (State.withPolicyResult r a) := by
  have hwait : readyWithin (s.withPolicyResult r a) =
    ((readyWithin s).1, (readyWithin s).2.withPolicyResult r a) := rfl
  rw [receive, receive, hwait]
  rcases readyWithin s with ⟨_ | _, t⟩
  · rfl
  · exact drain_withPolicyResult r a _ t

/-- An exchange neither reads nor writes the retry registers and the result (R147, R180). -/
theorem exchange_withPolicyResult (id ins : Byte) (p : List Byte) (wait : Word40) (s : State) :
    exchange id ins p wait (s.withPolicyResult r a) =
      (exchange id ins p wait s).map (State.withPolicyResult r a) := by
  have hsend : sendFrame (beginExchange id ins p wait (s.withPolicyResult r a)) =
    ((sendFrame (beginExchange id ins p wait s)).1,
      (sendFrame (beginExchange id ins p wait s)).2.withPolicyResult r a) := rfl
  rw [exchange, exchange, hsend]
  rcases sendFrame (beginExchange id ins p wait s) with ⟨_ | _, t⟩
  · rfl
  · exact receive_withPolicyResult r a (enterSent t)

end

theorem exchange_policy {id ins : Byte} {p : List Byte} {wait : Word40} {s t : State}
    (h : exchange id ins p wait s = some t) : t.policy = s.policy := by
  rw [(exchange_settles h).eq]; rfl

/-! ## The policy operands (R171, R172) -/

theorem waitEff_toNat (waitUs : Word32) (mult : Byte) :
    (waitEff waitUs mult).toNat = if mult = 0 then waitUs.toNat else waitUs.toNat * mult.toNat := by
  unfold waitEff
  split
  · exact BitVec.toNat_setWidth_of_le (by decide)
  · rw [BitVec.toNat_mul, BitVec.toNat_setWidth_of_le (by decide), BitVec.toNat_setWidth_of_le (by decide)]
    exact Nat.mod_eq_of_lt (show _ < 2 ^ 32 * 2 ^ 8 from Nat.mul_lt_mul'' waitUs.isLt mult.isLt)

theorem itersOf_bounds (iters : Byte) : 1 ≤ (itersOf iters).toNat ∧ (itersOf iters).toNat ≤ 255 := by
  rw [itersOf_toNat]
  split
  · decide
  · next h =>
    exact ⟨Nat.one_le_iff_ne_zero.mpr fun h0 => h (BitVec.eq_of_toNat_eq h0), Nat.le_of_lt_succ iters.isLt⟩

/-! ## The two commands (R147, R174) -/

theorem exec_xchg (id ins : Byte) (p : List Byte) (wait : Word40) (s : State) :
    exec (.xchg id ins p wait) s = orNeverEnds (runXchg id ins p wait s) := rfl

theorem exec_xchgr (id ins : Byte) (p : List Byte) (mult iters : Byte) (s : State) :
    exec (.xchgr id ins p mult iters) s = orNeverEnds (runXchgr id ins p mult iters s) := rfl

/-! ## One attempt (R178) -/

/-- With one attempt left the loop is its exchange, whatever the outcome. -/
theorem attempts_one (id ins : Byte) (p : List Byte) (wait : Word40) (s : State) :
    attempts id ins p wait 1 s = exchange id ins p wait (setAttempt (s.policy.attempt + 1) s) := by
  rw [attempts]
  cases exchange id ins p wait (setAttempt (s.policy.attempt + 1) s) with
  | none => rfl
  | some t => simp only [attempts, ite_self]

end Sys2Proof.Machine

open Sys2Proof Sys2Proof.Machine in
/-- Settles O38: neither product nor count overflows its register. -/
theorem policyOperandsAreExact : Obligations.PolicyOperandsAreExact :=
  ⟨waitEff_toNat, fun iters => ⟨itersOf_toNat iters, itersOf_bounds iters⟩⟩

open Sys2Proof Sys2Proof.Machine in
/-- Settles O37: the loop's one exchange is XCHG's from other retry registers, which it does not read. -/
theorem singleShotIsOneAttempt : Obligations.SingleShotIsOneAttempt := by
  intro s id ins p mult hidle hp
  have haccepts : accepts p s = true := (accepts_iff p s).mpr ⟨hidle, hp⟩
  have hstart : setAttempt ((startPolicy 1 s).policy.attempt + 1) (startPolicy 1 s) =
    (setAttempt 1 s).withPolicyResult ⟨1, 1⟩ s.result := rfl
  have hloop : runXchgr id ins p mult 1 s =
      ((exchange id ins p (waitEff s.cfg.waitUs mult) (setAttempt 1 s)).map
        (State.withPolicyResult ⟨1, 1⟩ s.result)).map presentOutcome := by
    rw [runXchgr, if_pos haccepts, show (itersOf 1).toNat = 1 from rfl, attempts_one, hstart,
      exchange_withPolicyResult]
  rw [exec_xchgr, hloop, exec_xchg, runXchg, if_pos haccepts]
  cases h : exchange id ins p (waitEff s.cfg.waitUs mult) (setAttempt 1 s) with
  | none => rfl
  | some t =>
    have hattempt : t.policy.attempt = 1 := by rw [exchange_policy h]; rfl
    simp [orNeverEnds, presentOutcome, present, State.withPolicyResult, respData, hattempt]
end

section
/-!
# The retry loop as a row of XCHGs (44_retry_policy R174 to R176)
-/

namespace Sys2Proof.Machine

section

variable {id ins : Byte} {p : List Byte} {wait : Word40} {k j : Nat} {s t u : State}

/-! ## A row of XCHGs on a line that goes quiet -/

/-- An exchange of this payload is accepted, and it ends. -/
structure Accepting (p : List Byte) (s : State) : Prop where
  inv : Inv s
  takes : s.takes p
  quiet : s.line.goesQuiet

theorem Accepting.accepts (h : Accepting p s) : accepts p s = true := (accepts_iff p s).mpr ⟨h.inv.idle, h.takes⟩

/-- `k` exchanges of one request, with the send buffer as the last left it. -/
structure Attempted (id ins : Byte) (p : List Byte) (wait : Word40) (k : Nat) (s t : State) : Prop
    extends Exchanged id ins p wait k s t where
  txBytes : t.txBytes = frameOf id ins p
  txLen : t.tx.len = (frameOf id ins p).length
  device : t.device = s.device

theorem Attempted.trans (h : Attempted id ins p wait k s t) (h' : Attempted id ins p wait j t u) :
    Attempted id ins p wait (k + j) s u where
  toExchanged := h.toExchanged.trans h'.toExchanged
  txBytes := h'.txBytes
  txLen := h'.txLen
  device := h'.device.trans h.device

/-- The state an XCHG leaves; where it never ends, the state it began in. -/
def xchgNext (id ins : Byte) (p : List Byte) (wait : Word40) (s : State) : State :=
  (runXchg id ins p wait s).getD s

/-- An accepted XCHG runs its one exchange and presents the outcome. -/
theorem Accepting.xchgNext_eq (h : Accepting p s) (id ins : Byte) (wait : Word40) :
    ∃ t, exchange id ins p wait (setAttempt 1 s) = some t ∧
      runXchg id ins p wait s = some (xchgNext id ins p wait s) ∧
      xchgNext id ins p wait s = presentOutcome t ∧ Attempted id ins p wait 1 s (xchgNext id ins p wait s) := by
  obtain ⟨t, ht, -, hx⟩ := exchange_once (id := id) (ins := ins) (wait := wait) h.inv h.takes h.quiet 1
  obtain ⟨hbytes, hlen⟩ := exchange_txBytes (s := setAttempt 1 s) (h.inv.congr rfl rfl rfl) ht
  have hdevice : t.device = s.device := by rw [(exchange_settles ht).eq]; rfl
  have hrun : runXchg id ins p wait s = some (presentOutcome t) := by rw [runXchg, if_pos h.accepts, ht]; rfl
  have hnext : xchgNext id ins p wait s = presentOutcome t := by rw [xchgNext, hrun]; rfl
  refine ⟨t, ht, by rw [hrun, hnext], hnext, ?_⟩
  rw [hnext]
  exact ⟨hx.congr rfl, hbytes, hlen, hdevice⟩

theorem Accepting.attempted (h : Accepting p s) (id ins : Byte) (wait : Word40) :
    Attempted id ins p wait 1 s (xchgNext id ins p wait s) := by
  obtain ⟨-, -, -, -, hx⟩ := h.xchgNext_eq id ins wait
  exact hx

theorem Accepting.exec_xchg (h : Accepting p s) (id ins : Byte) (wait : Word40) :
    exec (.xchg id ins p wait) s = .next (xchgNext id ins p wait s) := by
  obtain ⟨-, -, hrun, -⟩ := h.xchgNext_eq id ins wait
  exact congrArg orNeverEnds hrun

theorem Accepting.next (h : Accepting p s) (id ins : Byte) (wait : Word40) :
    Accepting p (xchgNext id ins p wait s) :=
  have hx := (h.attempted id ins wait).toExchanged
  ⟨hx.inv, hx.takes h.takes, hx.quiet⟩

theorem Accepting.iterate (h : Accepting p s) (id ins : Byte) (wait : Word40) (k : Nat) :
    Accepting p ((xchgNext id ins p wait)^[k] s) := by
  induction k generalizing s with
  | zero => exact h
  | succ k ih => exact ih (h.next id ins wait)

theorem Accepting.iterate_attempted (h : Accepting p s) (id ins : Byte) (wait : Word40) (hk : 1 ≤ k) :
    Attempted id ins p wait k s ((xchgNext id ins p wait)^[k] s) := by
  induction k, hk using Nat.le_induction with
  | base => exact h.attempted id ins wait
  | succ k _ ih =>
    rw [Function.iterate_succ_apply']
    exact ih.trans ((h.iterate id ins wait k).attempted id ins wait)

theorem Accepting.exec_iterate (h : Accepting p s) (id ins : Byte) (wait : Word40) (k : Nat) :
    exec (.xchg id ins p wait) ((xchgNext id ins p wait)^[k] s) = .next ((xchgNext id ins p wait)^[k + 1] s) := by
  rw [Function.iterate_succ_apply']
  exact (h.iterate id ins wait k).exec_xchg id ins wait

/-! ## The loop (R174) -/

/-- The row of states that `next` makes from `s` is cut at the `k`th: the first with a Success, or number `n`. -/
structure CutAt (next : State → State) (s : State) (n k : Nat) : Prop where
  pos : 1 ≤ k
  le : k ≤ n
  failed : ∀ i, 1 ≤ i → i < k → (next^[i] s).resp.outcome ≠ .success
  last : (next^[k] s).resp.outcome = .success ∨ k = n

theorem CutAt.one {next : State → State} {n : Nat} (h : (next s).resp.outcome = .success ∨ n = 0) :
    CutAt next s (n + 1) 1 where
  pos := le_rfl
  le := Nat.le_add_left 1 n
  failed i hi hlt := absurd hlt (Nat.not_lt.mpr hi)
  last := h.imp id fun h0 => by rw [h0]

theorem CutAt.succ {next : State → State} {n : Nat} (hfail : (next s).resp.outcome ≠ .success)
    (h : CutAt next (next s) n k) : CutAt next s (n + 1) (k + 1) where
  pos := Nat.le_add_left 1 k
  le := Nat.succ_le_succ h.le
  failed i hi hlt := by
    obtain ⟨i, rfl⟩ := Nat.exists_eq_add_of_le' hi
    rcases Nat.eq_zero_or_pos i with rfl | hpos
    · exact hfail
    · exact h.failed i hpos (Nat.lt_of_succ_lt_succ hlt)
  last := h.last.imp id (congrArg (· + 1))

/-- The loop's state after `j` attempts of at most `limit`, where the same XCHGs leave `s`; the host's result is still
the one from before the command. -/
def loopState (limit : BitVec 9) (a : Result) (j : Nat) (s : State) : State :=
  s.withPolicyResult ⟨BitVec.ofNat 8 j, limit⟩ a

/-- One round of the loop is the XCHG, counted. -/
theorem Accepting.attempts_succ (h : Accepting p s) (id ins : Byte) (wait : Word40) (limit : BitVec 9) (a : Result)
    (j n : Nat) : attempts id ins p wait (n + 1) (loopState limit a j s) =
      if (xchgNext id ins p wait s).resp.outcome = .success then
        some (loopState limit a (j + 1) (xchgNext id ins p wait s))
      else if (BitVec.ofNat 8 (j + 1)).setWidth 9 = limit then
        some (loopState limit a (j + 1) (xchgNext id ins p wait s))
      else attempts id ins p wait n (loopState limit a (j + 1) (xchgNext id ins p wait s)) := by
  obtain ⟨t, ht, -, hnext, -⟩ := h.xchgNext_eq id ins wait
  have hcount : setAttempt ((loopState limit a j s).policy.attempt + 1) (loopState limit a j s) =
      (setAttempt 1 s).withPolicyResult ⟨BitVec.ofNat 8 (j + 1), limit⟩ a := by
    rw [BitVec.ofNat_add]; rfl
  rw [attempts, hcount, exchange_withPolicyResult, ht, hnext]
  rfl

theorem reaches_limit_iff {limit : BitVec 9} {n : Nat} (hlimit : limit.toNat = j + (n + 1))
    (hmax : limit.toNat ≤ 255) : (BitVec.ofNat 8 (j + 1)).setWidth 9 = limit ↔ n = 0 := by
  rw [← BitVec.toNat_inj, hlimit, BitVec.toNat_setWidth_of_le (by decide), BitVec.toNat_ofNat,
    Nat.mod_eq_of_lt (by omega)]
  omega

/-- The loop makes its XCHGs up to the first Success or the limit, and `ATTEMPT` counts them. -/
theorem Accepting.attempts_eq {n : Nat} {limit : BitVec 9} (h : Accepting p s) (id ins : Byte) (wait : Word40)
    (a : Result) (hn : 1 ≤ n) (hlimit : limit.toNat = j + n) (hmax : limit.toNat ≤ 255) :
    ∃ k, CutAt (xchgNext id ins p wait) s n k ∧ attempts id ins p wait n (loopState limit a j s) =
      some (loopState limit a (j + k) ((xchgNext id ins p wait)^[k] s)) := by
  induction n generalizing s j with
  | zero => omega
  | succ n ih =>
    rw [h.attempts_succ]
    by_cases hok : (xchgNext id ins p wait s).resp.outcome = .success
    · exact ⟨1, .one (.inl hok), if_pos hok⟩
    · rw [if_neg hok]
      by_cases hlast : (BitVec.ofNat 8 (j + 1)).setWidth 9 = limit
      · exact ⟨1, .one (.inr ((reaches_limit_iff hlimit hmax).mp hlast)), if_pos hlast⟩
      · have hmore : n ≠ 0 := mt (reaches_limit_iff hlimit hmax).mpr hlast
        obtain ⟨k, hcut, hloop⟩ := ih (j := j + 1) (h.next id ins wait) (by omega) (by omega)
        refine ⟨k + 1, hcut.succ hok, ?_⟩
        rw [if_neg hlast, hloop, Nat.add_right_comm, Nat.add_assoc]
        rfl

/-- An accepted XCHGR is its row of XCHGs, counted, with the last one's outcome presented. -/
theorem Accepting.runXchgr_eq (h : Accepting p s) (id ins mult iters : Byte) :
    ∃ n, CutAt (xchgNext id ins p (waitEff s.cfg.waitUs mult)) s (itersOf iters).toNat n ∧
      runXchgr id ins p mult iters s = some (presentOutcome (loopState (itersOf iters) s.result n
        ((xchgNext id ins p (waitEff s.cfg.waitUs mult))^[n] s))) := by
  obtain ⟨hpos, hmax⟩ := itersOf_bounds iters
  obtain ⟨n, hcut, hloop⟩ := h.attempts_eq id ins (waitEff s.cfg.waitUs mult) s.result (j := 0) hpos
    (Nat.zero_add _).symm hmax
  have hstart : startPolicy iters s = loopState (itersOf iters) s.result 0 s := rfl
  exact ⟨n, hcut, by rw [runXchgr, if_pos h.accepts, hstart, hloop, Nat.zero_add, Option.map_some]⟩

end

end Sys2Proof.Machine

open Sys2Proof Sys2Proof.Machine in
/-- Settles O36: the loop's attempts are a row of XCHGs from the same state, cut at the first Success or the limit. -/
theorem retryLoopStopsAtSuccessOrTheLimit : Obligations.RetryLoopStopsAtSuccessOrTheLimit := by
  intro s id ins p mult iters hs hp hq
  have h : Accepting p s := ⟨hs, hp, hq⟩
  obtain ⟨n, hcut, hrun⟩ := h.runXchgr_eq id ins mult iters
  have hx := h.iterate_attempted id ins (waitEff s.cfg.waitUs mult) hcut.pos
  have hattempt : (BitVec.ofNat 8 n).toNat = n :=
    Nat.mod_eq_of_lt (Nat.lt_succ_of_le (hcut.le.trans (itersOf_bounds iters).2))
  exact ⟨_, n, fun k => (xchgNext id ins p (waitEff s.cfg.waitUs mult))^[k] s, congrArg orNeverEnds hrun, hcut.pos,
    itersOf_toNat iters ▸ hcut.le, rfl, fun k _ => h.exec_iterate id ins _ k, hcut.failed,
    itersOf_toNat iters ▸ hcut.last, rfl, hattempt, itersOf_toNat iters, hx.inv.idle, hx.outcome, hx.req, hx.sent,
    hx.txBytes, hx.txLen, hx.device, hx.frame.congr rfl⟩
end

section
/-!
# The session, the rate and the delay time (45_device_ops R187, R188, R204)
-/

namespace Sys2Proof

open Config

/-! ## Delay time (R204) -/

/-- The byte of a delay time that fits is half of it rounded up. -/
theorem toNat_delayByte {us : Nat} (h : us ≤ 510) : (BitVec.ofNat 8 ((us + 1) / 2)).toNat = (us + 1) / 2 := by
  rw [BitVec.toNat_ofNat, Nat.mod_eq_of_lt (by omega)]

/-- The default of U9: no byte for a delay time that does not fit. -/
theorem delayByte_of_ge {c : Params} {us : Nat} (h : 511 ≤ us) (hrefuse : c.delayOverflow = .refuse) :
    delayByte c us = none := by
  rw [delayByte, if_neg (by omega), hrefuse]

/-- In an unsigned row without fraction the value is the raw number of scale units (R202). -/
theorem scaledValue_of_unsigned {e : Row} {num : Nat} (h : e.unsigned num) (raw : Nat) :
    scaledValue e raw = .natural (raw * num) := by
  obtain ⟨hsigned, hnum, hden⟩ := h
  rw [scaledValue, if_neg (not_not.mpr hden), hsigned, hnum]
  exact congrArg Value.natural (Int.toNat_natCast (raw * num))

/-- A delay time reads as twice its first byte (R204, log 23). -/
theorem delayValue_cons {e : Row} (h : e.unsigned 2) (b : Byte) (bs : List Byte) :
    delayValue e (b :: bs) = .natural (2 * b.toNat) := by
  rw [delayValue, h.1, Nat.mul_comm, ← scaledValue_of_unsigned h]
  rfl

end Sys2Proof

namespace Sys2Proof.Machine

/-! ## SETBAUD (R188) -/

theorem setbaudCommand_of_ready {s : State} (hidle : s.xstate = .idle) (hready : s.cfg.ready = true) (baud : Word32) :
    setbaudCommand baud s = { s with
      cfg := { s.cfg with baud := baud }, line := { s.line with baud := baud }, result := ⟨.success, []⟩ } :=
  if_pos ⟨hidle, hready⟩

theorem setbaudCommand_of_not_ready {s : State} (h : s.xstate ≠ .idle ∨ s.cfg.ready = false) (baud : Word32) :
    setbaudCommand baud s = refuse s :=
  if_neg fun hs => h.elim (fun hbusy => hbusy hs.1) fun hr => Bool.false_ne_true (hr.symm.trans hs.2)

theorem exec_setbaud (baud : Word32) (s : State) : exec (.setbaud baud) s = .next (setbaudCommand baud s) := rfl

/-! ## INIT (R187) -/

theorem exec_init_of_idle {s : State} (h : s.xstate = .idle) (cap : Word16) (waitUs baud : Word32)
    (bits stop parity : Byte) :
    exec (.init cap waitUs baud bits stop parity) s = .next (initCommand cap waitUs baud bits stop parity s) :=
  congrArg Host.Outcome.next (ifIdle_of_idle h _)

/-- A cleared receive buffer reads `00` up to `CAP`, and beyond it as before. -/
theorem clearRx_reads (s : State) : (clearRx s).rx.len = 0 ∧ (∀ i, i < s.cfg.cap → (clearRx s).rxByte i = 0) ∧
    (∀ i, s.cfg.cap ≤ i → (clearRx s).rx.mem.read i = s.rx.mem.read i) := by
  refine ⟨rfl, fun i hi => ?_, fun i hi => ?_⟩
  · rw [State.rxByte, clearRx_rx, if_neg (by simp), Memory.read_zeroTo, if_pos hi]
  · rw [clearRx_rx, Memory.read_zeroTo, if_neg (Nat.not_lt.mpr hi)]

end Sys2Proof.Machine

open Sys2Proof Sys2Proof.Machine in
/-- Settles O30: the three clauses are the three branches of INIT, and its last one clears the receive buffer. -/
theorem initConstructsTheSession : Obligations.InitConstructsTheSession := by
  intro s cap waitUs baud bits stop parity hidle
  rw [exec_init_of_idle hidle, initCommand]
  refine ⟨fun hready => ?_, fun hfresh hclaimed => ?_, fun hfresh hfree => ?_⟩
  · rw [if_pos hready]; rfl
  · rw [hfresh, hclaimed]; rfl
  · rw [hfresh, hfree]
    exact ⟨_, rfl, rfl, clearRx_reads (configureSession cap waitUs baud bits stop parity s)⟩

open Sys2Proof Sys2Proof.Machine in
/-- Settles O31: SETBAUD's test of `XSTATE` and `CFG_READY` decides between its two branches. -/
theorem setbaudSetsTheRateOrIsRefused : Obligations.SetbaudSetsTheRateOrIsRefused := by
  intro s baud
  rw [exec_setbaud]
  exact ⟨fun hidle hready => by rw [setbaudCommand_of_ready hidle hready],
    fun h => by rw [setbaudCommand_of_not_ready h]; rfl⟩

open Sys2Proof Sys2Proof.Machine in
/-- Settles O56: the byte is half the delay time rounded up, and reading doubles it. -/
theorem delayTimeReadsBackRoundedUp : Obligations.DelayTimeReadsBackRoundedUp := by
  intro c us hmap hus
  obtain ⟨-, -, -, -, -, -, -, hdelay, -⟩ := hmap
  refine ⟨_, delayByte_of_le c hus, toNat_delayByte hus, ?_⟩
  rw [decodeQuantity, delayValue_cons hdelay, toNat_delayByte hus]
  refine congrArg Value.natural ?_
  split <;> omega

open Sys2Proof Sys2Proof.Machine in
/-- Settles O57: there is no byte to write, so no command is issued. -/
theorem delayTimeThatDoesNotFitIsRefused : Obligations.DelayTimeThatDoesNotFitIsRefused := by
  intro s f id m n us hus hrefuse
  rw [exec, execSetDelayTime, setDelayCall, delayByte_of_ge hus hrefuse]
  rfl
end

section
/-!
# A device that answers (43_session_exchange R148, 44_retry_policy R174, 45_device_ops R190, R192)

On a channel where nothing else happens an answered exchange takes the whole answer and leaves the channel as it was,
but for the frame sent and the reply used up. So the next exchange starts as this one did.
-/

namespace Sys2Proof.Machine

/-- The channel after an exchange that left nothing on its way: the frame is among those sent, and these replies are
still planned. -/
def Transport.exchanged (frame : List Byte) (replies : List Reply) (l : Transport) : Transport :=
  { l with sent := l.sent ++ [frame], replies := replies }

theorem Transport.exchanged_silent {l : Transport} (h : l.silent) (frame : List Byte) (replies : List Reply) :
    (l.exchanged frame replies).silent := h

/-! ## One exchange -/

/-- A send on a silent channel puts the reply's pieces on their way. -/
theorem Transport.send_of_planned {l : Transport} (h : l.silent) {chunks : List Chunk} {rs : List Reply}
    (hr : l.replies = ⟨true, chunks⟩ :: rs) (frame : List Byte) :
    l.send frame = (true, { l.exchanged frame rs with future := chunks }) := by
  obtain ⟨-, hfuture, hlag, hbalk, -⟩ := h
  have hsteady : l.Steady := ⟨hlag, hbalk⟩
  rw [Transport.send, hsteady.tick, Transport.emit, hr]
  simp [hfuture, Transport.exchanged]

/-- A steady and quiet channel with nothing on its way and nothing pending is what the plan's other fields say. -/
theorem Transport.Plays.eq_of_listens {l l' : Transport} (h : l'.Plays []) (hl : l.silent) (hlisten : l.Listens l')
    (havail : l'.avail = []) : l' = l := by
  obtain ⟨ha, hf, hlag, hbalk, hbabble⟩ := hl
  have hquiet : l'.babble = [] := h.quiet
  rw [Transport.Listens, havail, List.suffix_nil.mp h.rest, h.steady.lag, h.steady.balk, hquiet] at hlisten
  cases l
  cases ha; cases hf; cases hlag; cases hbalk; cases hbabble
  exact hlisten

/-- Steps 2 to 5 hand the request's frame to the channel (R148). -/
theorem sendFrame_beginExchange {s : State} (hs : Inv s) {id ins : Byte} {p : List Byte} (wait : Word40) {ok : Bool}
    {l : Transport} (h : s.line.send (frameOf id ins p) = (ok, l)) :
    sendFrame (beginExchange id ins p wait s) = (ok, sentState id ins p wait s) ∧
      (sentState id ins p wait s).line = l := by
  rw [← beginExchange_txBytes id ins p wait hs.txWf] at h
  exact ⟨Prod.ext (congrArg Prod.fst h :) rfl, congrArg Prod.snd h⟩

section

variable {s : State} (hs : Inv s) {p : List Byte} (hp : s.takes p) (hsilent : s.line.silent)
include hs hp hsilent

/-- A reply in one piece within the wait: the drain loop starts with all of it pending. -/
theorem exchange_of_one_piece {g : Nat} {fr : List Byte} {rs : List Reply}
    (hreplies : s.line.replies = ⟨true, [⟨g, fr⟩]⟩ :: rs) (id ins : Byte) {wait : Word40} (hgap : g ≤ wait.toNat) :
    exchange id ins p wait s =
      drain (passBound (arrivalState id ins p wait s)) (arrivalState id ins p wait s) ∧
    Receiving (arrivalState id ins p wait s) [] fr 0 3 (arrivalState id ins p wait s) ∧
    (arrivalState id ins p wait s).line = { s.line.exchanged (frameOf id ins p) rs with avail := fr } := by
  obtain ⟨hsent, hline⟩ := sendFrame_beginExchange hs wait
    (Transport.send_of_planned hsilent hreplies (frameOf id ins p))
  obtain ⟨havail, hfuture, hlag, hbalk, hbabble⟩ := hsilent
  have hwait := Transport.Steady.readyWithin_of_chunk
    (l := { s.line.exchanged (frameOf id ins p) rs with future := [⟨g, fr⟩] }) ⟨hlag, hbalk⟩ havail rfl hgap
  rw [← hline] at hwait
  have hready : readyWithin (enterSent (sentState id ins p wait s)) = (true, arrivalState id ins p wait s) :=
    Prod.ext (congrArg Prod.fst hwait :) rfl
  have harrived : (arrivalState id ins p wait s).line =
      { s.line.exchanged (frameOf id ins p) rs with avail := fr } := by
    refine (congrArg Prod.snd hwait).trans ?_
    rw [hline, Transport.exchanged, hfuture]
  refine ⟨by simp only [exchange, hsent, receive, hready], ⟨?_, Nat.zero_le _, .inr (Nat.zero_le _)⟩, harrived⟩
  exact {
    midway := (hs.sentState id ins wait hp).congr rfl
    settles := .refl _
    resp := rfl
    plays := by rw [harrived]; exact ⟨⟨hlag, hbalk⟩, hbabble, hfuture.symm ▸ List.suffix_rfl⟩
    bytes := by
      rw [harrived, Transport.coming_of_no_future (by exact hfuture)]
      rfl }

/-- An exchange that is answered by one status frame: its outcome and parameters, and the channel as before. -/
theorem exchange_of_answer {g : Nat} {rid st err : Byte} {params : List Byte} {rs : List Reply}
    (hreplies : s.line.replies = ⟨true, [⟨g, frameOf rid st (err :: params)⟩]⟩ :: rs)
    (hfits : payloadFits (err :: params) = true) (hroom : (frameOf rid st (err :: params)).length ≤ s.cfg.cap)
    (id ins : Byte) {wait : Word40} (hgap : g ≤ wait.toNat) :
    ∃ t, exchange id ins p wait s = some t ∧ t.resp.outcome = statusOutcome id rid err ∧ t.resp.params = params ∧
      t.line = s.line.exchanged (frameOf id ins p) rs := by
  have hfr := frameOf_shaped rid st hfits
  obtain ⟨hdrain, hstart, harrived⟩ := exchange_of_one_piece hs hp hsilent hreplies id ins hgap
  have hafter := Transport.exchanged_silent hsilent (frameOf id ins p) rs
  obtain ⟨-, -, -, -, hquiet⟩ := hsilent
  obtain ⟨t, ht, -⟩ := exchange_ends (s := s) hquiet id ins p wait
  obtain ⟨i, v, hv, hend⟩ := hstart.drain (by simp) (hdrain.symm.trans ht)
  obtain rfl : i = 0 := Nat.le_zero.mp (hfr.keep ▸ hv.before)
  have hbytes : v.rxBytes ++ v.line.coming = [] ++ frameOf rid st (err :: params) := hv.bytes
  cases hend with
  | overflow full pending eq =>
    refine absurd (hv.nothing_pending ?_) pending
    rw [full, hv.settles.cfg]
    exact hroom
  | silence exhausted answer eq =>
    rw [exhausted, List.append_nil] at hbytes
    rw [hbytes, List.nil_append, hfr.closed] at answer
    cases answer
  | closed fits answer eq =>
    obtain ⟨hall, hcoming⟩ := hfr.all_present (kept := []) hfr.hdrfind_eq hbytes answer
    rw [hall, List.nil_append, decodeFrameBytes_frameOf rid st hfits rfl rfl] at eq
    have hresp := actOn_status_resp v rid st err params
      (crc16 ((frameOf rid st (err :: params)).take ((frameOf rid st (err :: params)).length - 2)))
    have hid : v.req.id = id := by rw [hv.settles.req]; rfl
    have hlisten := hv.settles.line
    rw [harrived] at hlisten
    refine ⟨t, ht, by rw [eq, hresp, hid], by rw [eq, hresp], ?_⟩
    rw [eq]
    exact hv.plays.eq_of_listens hafter hlisten (List.append_eq_nil_iff.mp hcoming).1

end

/-! ## The command of a call -/

/-- A call whose first exchange succeeds makes no other: its command presents that exchange's outcome (R174, R178). -/
theorem issueCall_of_success {id ins m : Byte} {p : List Byte} {s t : State} (haccepts : accepts p s = true)
    (ht : exchange id ins p (waitEff s.cfg.waitUs m) (setAttempt 1 s) = some t) (hok : t.resp.outcome = .success)
    (f : Form) (n : Byte) :
    ∃ r a, issueCall f id ins p m n s = some (t.withPolicyResult r a) ∧ r.attempt = 1 ∧ a.code = .success := by
  cases f with
  | single =>
    refine ⟨t.policy, ⟨t.resp.outcome, respData t⟩, ?_, by rw [exchange_policy ht]; rfl, hok⟩
    rw [issueCall, runXchg, if_pos haccepts, ht]
    rfl
  | retried =>
    obtain ⟨k, hk⟩ := Nat.exists_eq_add_of_le' (itersOf_bounds n).1
    have hfirst : setAttempt ((startPolicy n s).policy.attempt + 1) (startPolicy n s) =
      (setAttempt 1 s).withPolicyResult ⟨1, itersOf n⟩ s.result := rfl
    refine ⟨⟨1, itersOf n⟩, ⟨t.resp.outcome, respData (t.withPolicyResult ⟨1, itersOf n⟩ s.result)⟩, ?_, rfl, hok⟩
    rw [issueCall, runXchgr, if_pos haccepts, hk, attempts, hfirst, exchange_withPolicyResult, ht]
    simp only [Option.map_some]
    rw [if_pos (show (t.withPolicyResult ⟨1, itersOf n⟩ s.result).resp.outcome = .success from hok)]
    rfl

/-- The command of an answered call. -/
theorem Answered.issueCall {s : State} {id st m : Byte} {p b : List Byte} {g : Nat}
    (h : Answered s id st m p b g) (f : Form) (ins n : Byte) :
    ∃ u, issueCall f id ins p m n s = some u ∧ u.result.code = .success ∧ u.resp.outcome = .success ∧
      u.resp.params = b ∧ u.policy.attempt = 1 := by
  have hs : Inv (setAttempt 1 s) := h.inv.congr rfl rfl rfl
  obtain ⟨t, ht, houtcome, hparams, -⟩ := exchange_of_answer hs h.takes h.silent h.replies h.hasFrame h.fits
    id ins h.inTime
  have hok : t.resp.outcome = .success := by simpa [statusOutcome] using houtcome
  obtain ⟨r, a, hu, hattempt, hcode⟩ :=
    issueCall_of_success ((accepts_iff p s).mpr ⟨h.inv.idle, h.takes⟩) ht hok f n
  exact ⟨_, hu, hcode, hok, hparams, hattempt⟩

/-! ## Reads (R190, R192) -/

/-- The post-processing of a read that succeeded: the number of parameters decides. -/
theorem finishRead_of_success (len : Word16) (value : List Byte → Value) {u : State}
    (h : u.result.code = .success) : finishRead len value u = { u with device :=
      if u.respPlen = len.toNat then ⟨.success, value u.resp.params⟩ else ⟨.wrongParameter, .none⟩ } := by
  rcases finishRead_cases len value u with ⟨hfail, -⟩ | ⟨-, hlen, e⟩ | ⟨-, hlen, e⟩
  · exact absurd h hfail
  · rw [e, if_neg hlen]
  · rw [e, if_pos hlen]

/-- What an answered read yields, whatever is made of its bytes. -/
theorem Answered.readCall {s : State} {id st m : Byte} {addr len : Word16} {b : List Byte} {g : Nat}
    (h : Answered s id st m (readPayload addr len) b g) (f : Form) (value : List Byte → Value) (n : Byte) :
    ∃ t, readCall f id addr len value m n s = some t ∧ t.resp.outcome = .success ∧ t.resp.params = b ∧
      t.policy.attempt = 1 ∧
      t.device = if b.length = len.toNat then ⟨.success, value b⟩ else ⟨.wrongParameter, .none⟩ := by
  obtain ⟨u, hu, hcode, houtcome, hparams, hattempt⟩ := h.issueCall f s.params.codes.read n
  refine ⟨finishRead len value u, by rw [Machine.readCall, hu]; rfl, ?_⟩
  rw [finishRead_of_success len value hcode]
  exact ⟨houtcome, hparams, hattempt, by rw [State.respPlen, hparams]⟩

/-- An answered GET of a row as wide as the answer is long yields its quantity's decoding (R197 to R207). -/
theorem Answered.get {s : State} {q : Config.Quantity} {w : Config.Width} {id st m : Byte} {b : List Byte} {g : Nat}
    (hw : (s.params.regmap.row q).width = w)
    (h : Answered s id st m (readPayload (s.params.regmap.row q).addr (widthLen w)) b g)
    (hlen : b.length = (widthLen w).toNat) {v : Value} (hv : decodeQuantity s.params q b = v) (f : Form) (n : Byte) :
    ∃ t, execAccess (.get f q id m n) s = .next t ∧ t.device = ⟨.success, v⟩ := by
  subst hw
  obtain ⟨t, ht, -, -, -, hdevice⟩ := h.readCall f (decodeQuantity s.params q) n
  refine ⟨t, congrArg orNeverEnds ht, ?_⟩
  rw [hdevice, if_pos hlen, hv]

end Sys2Proof.Machine

open Sys2Proof Sys2Proof.Machine in
/-- Settles O54: the first attempt succeeds, and the post-processing compares the lengths. -/
theorem answeredReadYieldsParametersOrWrongParameter : Obligations.AnsweredReadYieldsParametersOrWrongParameter := by
  intro s f id st m n addr len b g h
  obtain ⟨t, ht, hanswer⟩ := h.readCall f .bytes n
  exact ⟨t, congrArg orNeverEnds ht, hanswer⟩
end

section
/-!
# What the accessors make of a device's bytes (45_device_ops R197 to R207)
-/

namespace Sys2Proof

open Config

/-! ## Signed and unsigned values (R96 to R99) -/

theorem joinU16_eq_append (b0 b1 : Byte) : joinU16 b0 b1 = b1 ++ b0 := by
  apply BitVec.eq_of_toNat_eq
  rw [joinU16_toNat, BitVec.toNat_append, ← Nat.shiftLeft_add_eq_or_of_lt b0.isLt, Nat.shiftLeft_eq]
  omega

theorem joinU32_eq_append (b0 b1 b2 b3 : Byte) : joinU32 b0 b1 b2 b3 = b3 ++ b2 ++ b1 ++ b0 := by
  apply BitVec.eq_of_toNat_eq
  rw [joinU32_toNat, BitVec.toNat_append, BitVec.toNat_append, BitVec.toNat_append,
    ← Nat.shiftLeft_add_eq_or_of_lt b0.isLt, ← Nat.shiftLeft_add_eq_or_of_lt b1.isLt,
    ← Nat.shiftLeft_add_eq_or_of_lt b2.isLt]
  simp only [Nat.shiftLeft_eq]
  omega

theorem signedOf_two (b0 b1 : Byte) : signedOf .two [b0, b1] = (b1 ++ b0).toInt :=
  congrArg BitVec.toInt (joinU16_eq_append b0 b1)

theorem signedOf_four (b0 b1 b2 b3 : Byte) : signedOf .four [b0, b1, b2, b3] = (b3 ++ b2 ++ b1 ++ b0).toInt :=
  congrArg BitVec.toInt (joinU32_eq_append b0 b1 b2 b3)

/-- As many bytes as the row is wide are its digits, lowest first (log 23). -/
theorem unsignedOf_eq_foldr {w : Width} {bs : List Byte} (h : bs.length = (widthLen w).toNat) :
    unsignedOf w bs = bs.foldr (fun b v => b.toNat + 256 * v) 0 := by
  cases w with
  | one =>
    obtain ⟨b0, rfl⟩ := List.length_eq_one_iff.mp h
    rfl
  | two =>
    obtain ⟨b0, b1, rfl⟩ := List.length_eq_two.mp h
    exact joinU16_toNat b0 b1
  | four =>
    match bs, h with
    | [b0, b1, b2, b3], _ =>
      refine (joinU32_toNat b0 b1 b2 b3).trans ?_
      simp only [List.foldr]
      omega

/-! ## Values in a row's units (R202) -/

section

variable {e : Row} {num : Nat} (b0 b1 b2 b3 : Byte)

theorem numericValue_of_fraction (h : e.scaled num 1000) (b : List Byte) :
    numericValue e b = .rational (signedOf e.width b * num) 1000 := by
  obtain ⟨hsigned, rfl, hden⟩ := h
  rw [numericValue, scaledValue, hden, if_pos (by decide), rawOf, if_pos hsigned]

theorem numericValue_of_fraction_two (h : e.scaled num 1000) (hw : e.width = .two) :
    numericValue e [b0, b1] = .rational ((b1 ++ b0).toInt * num) 1000 := by
  rw [numericValue_of_fraction h, hw, signedOf_two]

theorem numericValue_of_fraction_four (h : e.scaled num 1000) (hw : e.width = .four) :
    numericValue e [b0, b1, b2, b3] = .rational ((b3 ++ b2 ++ b1 ++ b0).toInt * num) 1000 := by
  rw [numericValue_of_fraction h, hw, signedOf_four]

theorem numericValue_of_whole (h : e.scaled 1 1) (b : List Byte) :
    numericValue e b = .integer (signedOf e.width b) := by
  obtain ⟨hsigned, hnum, hden⟩ := h
  rw [numericValue, scaledValue, if_neg (not_not.mpr hden), if_pos hsigned, rawOf, if_pos hsigned, hnum]
  exact congrArg Value.integer (Int.mul_one _)

theorem numericValue_of_whole_two (h : e.scaled 1 1) (hw : e.width = .two) :
    numericValue e [b0, b1] = .integer (b1 ++ b0).toInt := by
  rw [numericValue_of_whole h, hw, signedOf_two]

theorem numericValue_of_whole_four (h : e.scaled 1 1) (hw : e.width = .four) :
    numericValue e [b0, b1, b2, b3] = .integer (b3 ++ b2 ++ b1 ++ b0).toInt := by
  rw [numericValue_of_whole h, hw, signedOf_four]

theorem numericValue_of_unsigned (h : e.unsigned 1) {bs : List Byte} (hlen : bs.length = (widthLen e.width).toNat) :
    numericValue e bs = .natural (bs.foldr (fun b v => b.toNat + 256 * v) 0) := by
  rw [numericValue, h.1, ← unsignedOf_eq_foldr hlen, ← Nat.mul_one (unsignedOf e.width bs),
    ← scaledValue_of_unsigned h]
  rfl

end

theorem torqueValue_cons (b : Byte) (bs : List Byte) : torqueValue (b :: bs) = .flag (decide (b ≠ 0)) := by
  simp [torqueValue, firstByte, bne, BEq.beq]

theorem driveModeValue_cons (c : Params) (b : Byte) (bs : List Byte) : driveModeValue c (b :: bs) =
    .flags (decide (b &&& c.mask1 ≠ 0)) (decide (b &&& c.mask2 ≠ 0)) (decide (b &&& c.mask3 ≠ 0)) := by
  simp [driveModeValue, firstByte, bne, BEq.beq]

end Sys2Proof

open Sys2Proof Sys2Proof.Machine in
/-- Settles O55, row by row: the answered GET yields its quantity's decoding, and the map's constraints fix the
scale. -/
theorem answeredAccessorsYieldTheDecodedValue : Obligations.AnsweredAccessorsYieldTheDecodedValue := by
  intro s f id st m n b0 b1 b2 b3 g
  refine ⟨fun e o ho h => ?position, fun e o ho => ⟨fun hw h => ?velocity4, fun hw h => ?velocity2⟩,
    fun e o ho => ⟨fun hw h => ?current2, fun hw h => ?current4⟩, fun e o bs ho hlen h => ?unsigned,
    fun e o v bs ho hlen h => ?firstByte⟩
  all_goals
    obtain ⟨-, -, -, ⟨hpos, hposW⟩, ⟨hgpos, hgposW⟩, ⟨hvel, -⟩, ⟨hgvel, -⟩, ⟨hcur, -⟩, ⟨hgcur, -⟩, htemp, hdelay,
      hmode, hrate⟩ := h.inv.params
    simp only [List.mem_cons, Prod.mk.injEq, List.not_mem_nil, or_false] at ho
  case position =>
    rcases ho with ⟨rfl, rfl⟩ | ⟨rfl, rfl⟩
    · exact h.get (q := .presentPosition) hposW rfl (numericValue_of_fraction_four b0 b1 b2 b3 hpos hposW) f n
    · exact h.get (q := .goalPosition) hgposW rfl (numericValue_of_fraction_four b0 b1 b2 b3 hgpos hgposW) f n
  case velocity4 =>
    rcases ho with ⟨rfl, rfl⟩ | ⟨rfl, rfl⟩
    · exact h.get (q := .presentVelocity) hw rfl (numericValue_of_fraction_four b0 b1 b2 b3 hvel hw) f n
    · exact h.get (q := .goalVelocity) hw rfl (numericValue_of_fraction_four b0 b1 b2 b3 hgvel hw) f n
  case velocity2 =>
    rcases ho with ⟨rfl, rfl⟩ | ⟨rfl, rfl⟩
    · exact h.get (q := .presentVelocity) hw rfl (numericValue_of_fraction_two b0 b1 hvel hw) f n
    · exact h.get (q := .goalVelocity) hw rfl (numericValue_of_fraction_two b0 b1 hgvel hw) f n
  case current2 =>
    rcases ho with ⟨rfl, rfl⟩ | ⟨rfl, rfl⟩
    · exact h.get (q := .presentCurrent) hw rfl (numericValue_of_whole_two b0 b1 hcur hw) f n
    · exact h.get (q := .goalCurrent) hw rfl (numericValue_of_whole_two b0 b1 hgcur hw) f n
  case current4 =>
    rcases ho with ⟨rfl, rfl⟩ | ⟨rfl, rfl⟩
    · exact h.get (q := .presentCurrent) hw rfl (numericValue_of_whole_four b0 b1 b2 b3 hcur hw) f n
    · exact h.get (q := .goalCurrent) hw rfl (numericValue_of_whole_four b0 b1 b2 b3 hgcur hw) f n
  case unsigned =>
    rcases ho with ⟨rfl, rfl⟩ | ⟨rfl, rfl⟩ | ⟨rfl, rfl⟩
    · exact h.get (q := .temperature) rfl hlen (numericValue_of_unsigned htemp hlen) f n
    · exact h.get (q := .operatingMode) rfl hlen (numericValue_of_unsigned hmode hlen) f n
    · exact h.get (q := .baudRate) rfl hlen (numericValue_of_unsigned hrate hlen) f n
  case firstByte =>
    rcases ho with ⟨rfl, rfl, rfl⟩ | ⟨rfl, rfl, rfl⟩ | ⟨rfl, rfl, rfl⟩
    · exact h.get (q := .delayTime) rfl hlen (delayValue_cons hdelay b0 bs) f n
    · exact h.get (q := .torqueEnable) rfl hlen (torqueValue_cons b0 bs) f n
    · exact h.get (q := .driveMode) rfl hlen (driveModeValue_cons s.params b0 bs) f n
end

section
/-!
# CONFIGURE: the session it keeps, the rate it sets, and that it completes (45_device_ops R209 to R211)
-/

namespace Sys2Proof.Machine

/-! ## The session and the rate -/

/-- `t` is a state of the session of `s`: only `CFG_BAUD` of the configuration may differ. -/
structure InSession (s t : State) : Prop extends KeepsSession s t where
  inv : Inv t

/-- `t` is a state of the session of `s` in which block and channel have the rate `b`. -/
structure AtRate (s : State) (b : Word32) (t : State) : Prop extends InSession s t where
  cfgBaud : t.cfg.baud = b
  lineBaud : t.line.baud = b

theorem exchange_lineBaud {id ins : Byte} {p : List Byte} {wait : Word40} {s t : State}
    (h : exchange id ins p wait s = some t) : t.line.baud = s.line.baud := by
  obtain ⟨-, -, -, -, -, hbaud, -⟩ := Transport.emit_fields (beginExchange id ins p wait s).txBytes s.line.tick
  exact (exchange_settles h).line.baud.trans (hbaud.trans s.line.tick_listens.baud)

theorem Effects.keepsLineBaud {s t : State} (h : Effects s t) : t.line.baud = s.line.baud := by
  induction h with
  | refl => rfl
  | tail _ he ih =>
    refine Eq.trans ?_ ih
    cases he with
    | exchange _ ht => exact exchange_lineBaud ht
    | _ => rfl

section

variable {s t u : State} {b : Word32}

theorem InSession.refl (hs : Inv s) : InSession s s := ⟨.refl s, hs⟩

theorem InSession.rateEffects (h : InSession s t) (he : RateEffects t u) : InSession s u :=
  ⟨h.toKeepsSession.trans he.keepsSession, h.inv.rateEffects he⟩

theorem InSession.ready (h : InSession s t) (hready : s.cfg.ready = true) : t.cfg.ready = true := by
  rw [h.cfg]
  exact hready

/-- A call touches neither rate. -/
theorem AtRate.effects (h : AtRate s b t) (he : Effects t u) : AtRate s b u where
  toInSession := h.toInSession.rateEffects he.rateEffects
  cfgBaud := he.keepsCfg ▸ h.cfgBaud
  lineBaud := he.keepsLineBaud.trans h.lineBaud

theorem AtRate.cfg_eq (h : AtRate s b t) : t.cfg = { s.cfg with baud := b } := by
  rw [h.cfg, h.cfgBaud]

/-- SETBAUD inside the session is accepted (R188). -/
theorem InSession.setbaud_eq (h : InSession s t) (hready : s.cfg.ready = true) (b : Word32) :
    setbaudCommand b t =
      { t with cfg := { s.cfg with baud := b }, line := { t.line with baud := b }, result := ⟨.success, []⟩ } := by
  rw [setbaudCommand_of_ready h.inv.idle (h.ready hready), h.cfg]

theorem InSession.setbaud (h : InSession s t) (hready : s.cfg.ready = true) (b : Word32) :
    AtRate s b (setbaudCommand b t) where
  toInSession := h.rateEffects (setbaudCommand_effects b t)
  cfgBaud := by rw [h.setbaud_eq hready]
  lineBaud := by rw [h.setbaud_eq hready]

theorem setbaudCommand_device (b : Word32) (t : State) : (setbaudCommand b t).device = t.device := by
  unfold setbaudCommand
  split <;> rfl

/-! ## The steps one after the other -/

theorem exec_configure (f : Form) (id : Byte) (baud : Word32) (us : Nat) (opmode : Byte) (s : State) :
    exec (.configure f id baud us opmode) s = orNeverEnds (configureCall f id baud us opmode s) := rfl

/-- What CONFIGURE does after its sweep (R211). -/
theorem configureCall_of_sweep {f : Form} {id : Byte}
    (h : sweep f id s.params.baudCandidates (reply .noResponse .none s) = some t) (baud : Word32) (us : Nat)
    (opmode : Byte) : configureCall f id baud us opmode s =
      if t.device.code = .success then configureSteps f id baud us opmode t
      else some (setbaudCommand s.cfg.baud t) := by
  simp only [configureCall, h]

/-- The operation ends, in a state with the property. -/
def Yields (P : State → Prop) (o : Option State) : Prop := ∃ t, o = some t ∧ P t

theorem Yields.thenStep {P Q : State → Prop} {o : Option State} {k : State → Option State} (h : Yields P o)
    (go : ∀ t, P t → t.device.code = .success → Yields Q (k t))
    (stop : ∀ t, P t → t.device.code ≠ .success → Q t) : Yields Q (thenStep o k) := by
  obtain ⟨t, rfl, ht⟩ := h
  rcases thenStep_cases t k with ⟨hok, e⟩ | ⟨hfail, e⟩ <;> rw [e]
  · exact go t ht hok
  · exact ⟨t, rfl, stop t ht hfail⟩

/-! ## On a line that goes quiet -/

/-- CONFIGURE has come to `t` on a line that goes quiet, and would answer without a value: an exchange outcome, or
Refused (log 14, log 27). -/
structure Underway (s t : State) : Prop extends InSession s t where
  quiet : t.line.goesQuiet
  code : t.device.code.isExchange = true ∨ t.device.code = .refused
  value : t.device.value = .none

/-- The result of a call's command is an exchange outcome, or Refused. -/
theorem issueCall_code (hs : Inv t) (hq : t.line.goesQuiet) (f : Form) (id code : Byte) (p : List Byte)
    (m n : Byte) : ∃ u, issueCall f id code p m n t = some u ∧ u.line.goesQuiet ∧
      (u.result.code.isExchange = true ∨ u.result.code = .refused) := by
  cases ha : accepts p t with
  | true =>
    obtain ⟨-, hp⟩ := (accepts_iff p t).mp ha
    obtain ⟨u, _, hu, -, -, -, hresult, hx⟩ := issueCall_exchanged (id := id) (ins := code) f m n hs hp hq
    exact ⟨u, hu, hx.quiet, .inl (by rw [hresult]; exact hx.outcome)⟩
  | false =>
    refine ⟨refuse t, ?_, hq, .inr rfl⟩
    cases f <;> simp [issueCall, runXchg, runXchgr, ha]

/-- A call keeps CONFIGURE under way. -/
theorem Underway.plainCall (h : Underway s t) (f : Form) (id code : Byte) (p : List Byte) :
    Yields (fun u => Underway s u ∧ Effects t u) (plainCall f id code p 0 0 t) := by
  obtain ⟨u, hu, hquiet, hcode⟩ := issueCall_code h.inv h.quiet f id code p 0 0
  have he : Effects t (finishPlain u) := (issueCall_effects hu).tail (.answer u _ _)
  refine ⟨finishPlain u, by rw [Machine.plainCall, hu]; rfl, ?_, he⟩
  exact ⟨h.toInSession.rateEffects he.rateEffects, hquiet, hcode, rfl⟩

theorem Underway.setDelayCall (h : Underway s t) (f : Form) (id : Byte) (us : Nat) :
    Yields (fun u => Underway s u ∧ Effects t u) (setDelayCall f id us 0 0 t) := by
  unfold Machine.setDelayCall
  split
  · exact h.plainCall f id _ _
  · have he : Effects t (reply .refused .none t) := reply_effects _ _ t
    exact ⟨_, rfl, ⟨h.toInSession.rateEffects he.rateEffects, h.quiet, .inr rfl, rfl⟩, he⟩

theorem Underway.setbaud (h : Underway s t) (b : Word32) : Underway s (setbaudCommand b t) where
  toInSession := h.toInSession.rateEffects (setbaudCommand_effects b t)
  quiet := setbaudCommand_goesQuiet h.quiet b
  code := setbaudCommand_device b t ▸ h.code
  value := setbaudCommand_device b t ▸ h.value

theorem Underway.sweep (h : Underway s t) (f : Form) (id : Byte) (cs : List Word32) :
    Yields (Underway s) (sweep f id cs t) := by
  induction cs generalizing t with
  | nil => exact ⟨t, rfl, h⟩
  | cons c cs ih =>
    obtain ⟨u, hu, hunder, -⟩ := (h.setbaud c).plainCall f id (setbaudCommand c t).params.codes.ping []
    rw [sweep_cons hu]
    split
    · exact ⟨u, rfl, hunder⟩
    · exact ih hunder

/-- CONFIGURE may end in `t`: under way, and on Success at the target rate. -/
structure Configured (s : State) (b : Word32) (t : State) : Prop extends Underway s t where
  rate : t.device.code = .success → AtRate s b t

theorem Underway.stopped (h : Underway s t) (hfail : t.device.code ≠ .success) : Configured s b t :=
  ⟨h, fun hok => absurd hok hfail⟩

theorem Underway.configureSteps (h : Underway s t) (hready : s.cfg.ready = true) (f : Form) (id : Byte)
    (b : Word32) (us : Nat) (opmode : Byte) :
    Yields (Configured s b) (configureSteps f id b us opmode t) := by
  refine (h.plainCall f id _ _).thenStep (fun t ⟨ht, _⟩ _ => ?_) (fun t ⟨ht, _⟩ => ht.stopped)
  refine (ht.plainCall f id _ _).thenStep (fun t ⟨ht, _⟩ _ => ?_) (fun t ⟨ht, _⟩ => ht.stopped)
  have hset : AtRate s b (setbaudCommand b t) := ht.toInSession.setbaud hready b
  refine ((ht.setbaud b).setDelayCall f id us).thenStep (fun t ⟨ht, he⟩ _ => ?_) (fun t ⟨ht, _⟩ => ht.stopped)
  obtain ⟨u, hu, hunder, he'⟩ := ht.plainCall f id t.params.codes.write
    (writePayload t.params.regmap.operatingMode.addr [opmode])
  exact ⟨u, hu, hunder, fun _ => (hset.effects he).effects he'⟩

theorem configureCall_configured (hs : Inv s) (hready : s.cfg.ready = true) (hq : s.line.goesQuiet) (f : Form)
    (id : Byte) (b : Word32) (us : Nat) (opmode : Byte) :
    Yields (Configured s b) (configureCall f id b us opmode s) := by
  have hstart : Underway s (reply .noResponse .none s) :=
    ⟨(InSession.refl hs).rateEffects (reply_effects _ _ s).rateEffects, hq, .inl rfl, rfl⟩
  obtain ⟨t, hsweep, ht⟩ := hstart.sweep f id s.params.baudCandidates
  rw [configureCall_of_sweep hsweep]
  split
  · exact ht.configureSteps hready f id b us opmode
  · next hfail => exact ⟨_, rfl, (ht.setbaud s.cfg.baud).stopped (setbaudCommand_device _ t ▸ hfail)⟩

end

end Sys2Proof.Machine

open Sys2Proof Sys2Proof.Machine in
/-- Settles O58: every call of CONFIGURE completes with an exchange outcome or Refused, and the last SETBAUD before a
Success is the target's. -/
theorem configureCompletesAtTheTargetRate : Obligations.ConfigureCompletesAtTheTargetRate := by
  intro s f id opmode b us hs hready hq
  obtain ⟨t, ht, hdone⟩ := configureCall_configured hs hready hq f id b us opmode
  refine ⟨t, congrArg orNeverEnds ht, hdone.inv.idle, hdone.code, hdone.value, fun hok => ?_, hdone.cfg, hdone.params,
    hdone.port⟩
  exact ⟨(hdone.rate hok).cfgBaud, (hdone.rate hok).lineBaud⟩
end

section
/-!
# What the device layer answered last is read by no operation (45_device_ops R186)

CONFIGURE starts with an answer of its own, NoResponse, where a PING of the host's starts with the answer of the call
before it. Both run alike: like the retry registers (`exchange_withPolicyResult`), the answer is only written.
-/

namespace Sys2Proof.Machine

/-- The state with another answer of the device layer. -/
def State.withDevice (d : DeviceReply) (s : State) : State := { s with device := d }

section

variable (d : DeviceReply) (s : State)

@[simp] theorem State.withDevice_rx : (s.withDevice d).rx = s.rx := rfl

@[simp] theorem State.withDevice_cfg : (s.withDevice d).cfg = s.cfg := rfl

@[simp] theorem State.withDevice_policy : (s.withDevice d).policy = s.policy := rfl

@[simp] theorem State.withDevice_xstate : (s.withDevice d).xstate = s.xstate := rfl

@[simp] theorem readyNow_withDevice : readyNow (s.withDevice d) = ((readyNow s).1, (readyNow s).2.withDevice d) := rfl

@[simp] theorem readOne_withDevice : readOne (s.withDevice d) = ((readOne s).1, (readOne s).2.withDevice d) := rfl

@[simp] theorem readyWithin_withDevice :
    readyWithin (s.withDevice d) = ((readyWithin s).1, (readyWithin s).2.withDevice d) := rfl

@[simp] theorem appendRx_withDevice (b : Byte) : appendRx b (s.withDevice d) = (appendRx b s).withDevice d := rfl

@[simp] theorem refillUpTo_withDevice (k : Nat) : refillUpTo k (s.withDevice d) = (refillUpTo k s).withDevice d := by
  induction k generalizing s with
  | zero => rfl
  | succ k ih =>
    rcases hread : readOne (readyNow s).2 with ⟨_ | b, t⟩ <;>
      simp [refillUpTo, hread, ih, apply_ite (State.withDevice d)]

@[simp] theorem overflowTest_withDevice :
    overflowTest (s.withDevice d) = ((overflowTest s).1, (overflowTest s).2.withDevice d) := by
  by_cases hfull : s.rx.len = s.cfg.cap <;> simp [overflowTest, hfull]

@[simp] theorem compact_withDevice (k : Nat) : compact k (s.withDevice d) = (compact k s).withDevice d := by
  unfold compact
  split <;> rfl

@[simp] theorem actOn_withDevice (r : DecodeResult) : actOn r (s.withDevice d) = (actOn r s).withDevice d := by
  cases r with
  | headerNotFound k => exact congrArg noteSeeking (compact_withDevice d s k)
  | incomplete k => exact congrArg notePartial (compact_withDevice d s k)
  | malformed | checksumMismatch | success => rfl

@[simp] theorem drainPass_withDevice : drainPass (s.withDevice d) = (drainPass s).withDevice d := by
  have hrefill : refill (enterDraining (s.withDevice d)) = (refill (enterDraining s)).withDevice d :=
    refillUpTo_withDevice d (enterDraining s) _
  rw [drainPass, drainPass, hrefill, overflowTest_withDevice]
  rcases overflowTest (refill (enterDraining s)) with ⟨_ | _, t⟩
  · exact actOn_withDevice d t _
  · rfl

@[simp] theorem moreAfterPass_withDevice :
    moreAfterPass (s.withDevice d) = ((moreAfterPass s).1, (moreAfterPass s).2.withDevice d) := by
  cases hready : (readyNow s).1 <;> simp [moreAfterPass, hready]

@[simp] theorem drain_withDevice (n : Nat) : drain n (s.withDevice d) = (drain n s).map (State.withDevice d) := by
  induction n generalizing s with
  | zero => rfl
  | succ n ih =>
    rcases hmore : moreAfterPass (drainPass s) with ⟨_ | _, t⟩
    · simp only [drain, drainPass_withDevice, State.withDevice_xstate, moreAfterPass_withDevice, hmore,
        apply_ite (Option.map (State.withDevice d))]
      rfl
    · simp [drain, hmore, ih, apply_ite (Option.map (State.withDevice d))]

theorem exchange_withDevice (id ins : Byte) (p : List Byte) (wait : Word40) :
    exchange id ins p wait (s.withDevice d) = (exchange id ins p wait s).map (State.withDevice d) := by
  have hsend : sendFrame (beginExchange id ins p wait (s.withDevice d)) =
    ((sendFrame (beginExchange id ins p wait s)).1,
      (sendFrame (beginExchange id ins p wait s)).2.withDevice d) := rfl
  have hreceive : ∀ t : State, receive (t.withDevice d) = (receive t).map (State.withDevice d) := fun t => by
    rw [receive, receive, readyWithin_withDevice]
    rcases readyWithin t with ⟨_ | _, v⟩
    · rfl
    · exact drain_withDevice d v _
  rw [exchange, exchange, hsend]
  rcases sendFrame (beginExchange id ins p wait s) with ⟨_ | _, t⟩
  · rfl
  · exact hreceive (enterSent t)

@[simp] theorem accepts_withDevice (p : List Byte) : accepts p (s.withDevice d) = accepts p s := rfl

@[simp] theorem setAttempt_withDevice (v : Byte) : setAttempt v (s.withDevice d) = (setAttempt v s).withDevice d := rfl

theorem attempts_withDevice (id ins : Byte) (p : List Byte) (wait : Word40) (n : Nat) :
    attempts id ins p wait n (s.withDevice d) = (attempts id ins p wait n s).map (State.withDevice d) := by
  induction n generalizing s with
  | zero => rfl
  | succ n ih =>
    rw [attempts, attempts, setAttempt_withDevice, exchange_withDevice, State.withDevice_policy]
    cases exchange id ins p wait (setAttempt (s.policy.attempt + 1) s) with
    | none => rfl
    | some t =>
      simp only [Option.map_some, ih, apply_ite (Option.map (State.withDevice d))]
      rfl

theorem issueCall_withDevice (f : Form) (id ins m n : Byte) (p : List Byte) :
    issueCall f id ins p m n (s.withDevice d) = (issueCall f id ins p m n s).map (State.withDevice d) := by
  cases f with
  | retried =>
    have hloop := attempts_withDevice d (startPolicy n s) id ins p (waitEff s.cfg.waitUs m) (itersOf n).toNat
    have hstart : startPolicy n (s.withDevice d) = (startPolicy n s).withDevice d := rfl
    simp only [issueCall, runXchgr, accepts_withDevice, State.withDevice_cfg, hstart, hloop, Option.map_map,
      apply_ite (Option.map (State.withDevice d))]
    rfl
  | single =>
    simp only [issueCall, runXchg, accepts_withDevice, State.withDevice_cfg, setAttempt_withDevice,
      exchange_withDevice, Option.map_map, apply_ite (Option.map (State.withDevice d))]
    rfl

/-- A call's answer takes the place of the last one, whatever that was. -/
theorem plainCall_withDevice (f : Form) (id code m n : Byte) (p : List Byte) :
    plainCall f id code p m n (s.withDevice d) = plainCall f id code p m n s := by
  rw [plainCall, issueCall_withDevice, Option.map_map]
  rfl

theorem setbaudCommand_withDevice (baud : Word32) :
    setbaudCommand baud (s.withDevice d) = (setbaudCommand baud s).withDevice d := by
  by_cases h : s.xstate = .idle ∧ s.cfg.ready = true
  · rw [setbaudCommand, setbaudCommand, if_pos h]
    exact if_pos h
  · rw [setbaudCommand, setbaudCommand, if_neg h]
    exact if_neg h

/-- A sweep with a candidate starts with a PING. -/
theorem sweep_withDevice (f : Form) (id : Byte) {cs : List Word32} (hcs : cs ≠ []) :
    sweep f id cs (s.withDevice d) = sweep f id cs s := by
  cases cs with
  | nil => exact absurd rfl hcs
  | cons c cs =>
    have hping : pingCall f id 0 0 (setbaudCommand c (s.withDevice d)) = pingCall f id 0 0 (setbaudCommand c s) := by
      rw [setbaudCommand_withDevice]
      exact plainCall_withDevice d _ f id _ 0 0 []
    rw [sweep, sweep, hping]

end

end Sys2Proof.Machine
end

section
/-!
# A device that does not answer (43_session_exchange R155, 44_retry_policy R174)
-/

namespace Sys2Proof.Machine

/-- The channel after `k` sends of a frame that brought nothing. -/
def Transport.afterSends (k : Nat) (frame : List Byte) (l : Transport) : Transport :=
  { l with sent := l.sent ++ List.replicate k frame }

theorem Transport.afterSends_afterSends (j k : Nat) (frame : List Byte) (l : Transport) :
    (l.afterSends j frame).afterSends k frame = l.afterSends (j + k) frame := by
  simp [Transport.afterSends]

/-- Nothing is pending, on its way or planned, so nothing is ever received. -/
def Transport.Dead (l : Transport) : Prop := l.silent ∧ l.replies = []

section

variable {s : State}

theorem Transport.Dead.goesQuiet {l : Transport} (h : l.Dead) : l.goesQuiet := by
  obtain ⟨⟨-, -, -, -, hbabble⟩, -⟩ := h
  exact hbabble

/-- An exchange on such a channel ends in NoResponse, with the one frame sent. -/
theorem exchange_of_dead (hs : Inv s) (hdead : s.line.Dead) (id ins : Byte) (p : List Byte) (wait : Word40) :
    ∃ t, exchange id ins p wait s = some t ∧ t.resp.outcome = .noResponse ∧
      t.line = s.line.afterSends 1 (frameOf id ins p) := by
  obtain ⟨⟨havail, hfuture, hlag, hbalk, hbabble⟩, hreplies⟩ := hdead
  have hsteady : s.line.Steady := ⟨hlag, hbalk⟩
  obtain ⟨hsent, hline⟩ := sendFrame_beginExchange hs wait (hsteady.send hreplies (frameOf id ins p))
  have hwait := Transport.Steady.readyWithin_of_nothing (l := (sentState id ins p wait s).line)
    (hline ▸ ⟨hlag, hbalk⟩) (hline ▸ hbabble) (hline ▸ havail) (hline ▸ hfuture) wait
  have hready : readyWithin (enterSent (sentState id ins p wait s)) =
      (false, enterSent (sentState id ins p wait s)) := by
    rw [readyWithin]
    exact Prod.ext (congrArg Prod.fst hwait :)
      (congrArg (fun l => { enterSent (sentState id ins p wait s) with line := l }) (congrArg Prod.snd hwait))
  exact ⟨endQuiet (enterSent (sentState id ins p wait s)), by simp only [exchange, hsent, receive, hready], rfl, hline⟩

variable {p : List Byte}

theorem Accepting.xchgNext_of_dead (h : Accepting p s) (hdead : s.line.Dead) (id ins : Byte) (wait : Word40) :
    (xchgNext id ins p wait s).resp.outcome = .noResponse ∧
      (xchgNext id ins p wait s).line = s.line.afterSends 1 (frameOf id ins p) := by
  obtain ⟨t, ht, -, hnext, -⟩ := h.xchgNext_eq id ins wait
  obtain ⟨u, hu, houtcome, hline⟩ := exchange_of_dead (s := setAttempt 1 s) (h.inv.congr rfl rfl rfl) hdead id ins p
    wait
  cases ht.symm.trans hu
  rw [hnext]
  exact ⟨houtcome, hline⟩

theorem Accepting.iterate_of_dead (h : Accepting p s) (hdead : s.line.Dead) (id ins : Byte) (wait : Word40) (k : Nat) :
    ((xchgNext id ins p wait)^[k] s).line = s.line.afterSends k (frameOf id ins p) := by
  induction k with
  | zero => simp [Transport.afterSends]
  | succ k ih =>
    have hline := ((h.iterate id ins wait k).xchgNext_of_dead (by rw [ih]; exact hdead) id ins wait).2
    rw [Function.iterate_succ_apply', hline, ih, Transport.afterSends_afterSends]

/-- The command of a call makes all its attempts, and presents NoResponse. -/
theorem Accepting.issueCall_of_dead (h : Accepting p s) (hdead : s.line.Dead) (f : Form) (id ins m n : Byte) :
    ∃ u, issueCall f id ins p m n s = some u ∧ u.result.code = .noResponse ∧
      u.line = s.line.afterSends (maxAttempts f n) (frameOf id ins p) := by
  cases f with
  | single =>
    obtain ⟨t, -, hrun, hnext, -⟩ := h.xchgNext_eq id ins (waitEff s.cfg.waitUs m)
    obtain ⟨houtcome, hline⟩ := h.xchgNext_of_dead hdead id ins (waitEff s.cfg.waitUs m)
    refine ⟨_, hrun, ?_, hline⟩
    rw [hnext] at houtcome ⊢
    exact houtcome
  | retried =>
    obtain ⟨k, hcut, hrun⟩ := h.runXchgr_eq id ins m n
    have hline := h.iterate_of_dead hdead id ins (waitEff s.cfg.waitUs m) k
    obtain ⟨j, rfl⟩ := Nat.exists_eq_add_of_le' hcut.pos
    have houtcome : ((xchgNext id ins p (waitEff s.cfg.waitUs m))^[j + 1] s).resp.outcome = .noResponse := by
      rw [Function.iterate_succ_apply']
      refine ((h.iterate id ins _ j).xchgNext_of_dead ?_ id ins _).1
      rw [h.iterate_of_dead hdead]
      exact hdead
    have hall : j + 1 = maxAttempts .retried n :=
      (hcut.last.resolve_left (by rw [houtcome]; nofun)).trans (itersOf_toNat n)
    rw [hall] at hline hrun houtcome
    exact ⟨_, hrun, houtcome, hline⟩

end

/-! ## A sweep of PINGs (45_device_ops R211) -/

theorem frameFits_nil {txCap : Nat} (h : 10 ≤ txCap) : frameFits txCap [] = true :=
  (frameFits_iff txCap []).mpr ⟨h, by decide⟩

theorem InSession.takes_nil {s t : State} (h : InSession s t) (hready : s.cfg.ready = true) : t.takes [] := by
  obtain ⟨-, htx, -⟩ := h.inv.params
  exact ⟨h.ready hready, frameFits_nil htx⟩

/-- On such a channel a sweep makes all attempts of all its PINGs, and the last of them answers NoResponse. -/
theorem sweep_of_dead {s t : State} (h : InSession s t) (hready : s.cfg.ready = true) (hdead : t.line.Dead)
    (hdevice : t.device = ⟨.noResponse, .none⟩) (f : Form) (id : Byte) (cs : List Word32) :
    ∃ u, sweep f id cs t = some u ∧ u.device = ⟨.noResponse, .none⟩ ∧ u.line.sent = t.line.sent ++
      List.replicate (maxAttempts f 0 * cs.length) (frameOf id s.params.codes.ping []) := by
  induction cs generalizing t with
  | nil => exact ⟨t, rfl, hdevice, by simp⟩
  | cons c cs ih =>
    have hrate := h.setbaud hready c
    have hline : (setbaudCommand c t).line = { t.line with baud := c } := by rw [h.setbaud_eq hready]
    have hdead' : (setbaudCommand c t).line.Dead := hline ▸ hdead
    have haccept : Accepting [] (setbaudCommand c t) := ⟨hrate.inv, hrate.takes_nil hready, hdead'.goesQuiet⟩
    obtain ⟨u, hu, hcode, huline⟩ := haccept.issueCall_of_dead hdead' f id (setbaudCommand c t).params.codes.ping 0 0
    have hping : pingCall f id 0 0 (setbaudCommand c t) = some (finishPlain u) := by
      rw [pingCall, plainCall, hu]; rfl
    have hanswer : (finishPlain u).device = ⟨.noResponse, .none⟩ := by rw [finishPlain_eq, hcode]
    have hafter : InSession s (finishPlain u) := hrate.toInSession.rateEffects (plainCall_effects hping).rateEffects
    obtain ⟨v, hv, hvdevice, hvsent⟩ := ih hafter (by rw [finishPlain_eq, huline]; exact hdead') hanswer
    refine ⟨v, by rw [sweep_cons hping, if_neg (by rw [hanswer]; nofun), hv], hvdevice, ?_⟩
    have hsent : (finishPlain u).line.sent = t.line.sent ++
        List.replicate (maxAttempts f 0) (frameOf id s.params.codes.ping []) := by
      rw [finishPlain_eq, huline, hline, hrate.params]; rfl
    rw [hvsent, hsent, List.append_assoc, List.replicate_append_replicate, List.length_cons]
    congr 2
    ring

end Sys2Proof.Machine
end

section
/-!
# A sweep in which no PING succeeds (45_device_ops R211)
-/

namespace Sys2Proof.Machine

/-- The host's own SETBAUD and PING of each candidate in turn end in no Success: `u k` is the state before candidate
`k`, `v k` the one after its SETBAUD. -/
def SweepFails (f : Form) (id : Byte) (cs : List Word32) (u v : Nat → State) : Prop :=
  ∀ k c, cs[k]? = some c → exec (.setbaud c) (u k) = .next (v k) ∧
    exec (.ping f id 0 0) (v k) = .next (u (k + 1)) ∧ (u (k + 1)).device.code ≠ .success

section

variable {f : Form} {id : Byte} {cs : List Word32} {u v : Nat → State}

theorem pingCall_of_exec {c : Word32} {s t t' : State} (hset : exec (.setbaud c) s = .next t)
    (hping : exec (.ping f id 0 0) t = .next t') : pingCall f id 0 0 (setbaudCommand c s) = some t' := by
  rw [exec_setbaud] at hset
  cases hset
  exact orNeverEnds_next hping

/-- Such a sweep goes through its candidates and on to what follows them. -/
theorem SweepFails.sweep_append (h : SweepFails f id cs u v) (rest : List Word32) :
    sweep f id (cs ++ rest) (u 0) = sweep f id rest (u cs.length) := by
  induction cs generalizing u v with
  | nil => rfl
  | cons c cs ih =>
    obtain ⟨hset, hping, hfail⟩ := h 0 c rfl
    rw [List.cons_append, sweep_cons (pingCall_of_exec hset hping), if_neg hfail]
    exact ih (u := fun k => u (k + 1)) (v := fun k => v (k + 1)) fun k d hd => h (k + 1) d hd

theorem SweepFails.sweep_eq (h : SweepFails f id cs u v) : sweep f id cs (u 0) = some (u cs.length) := by
  have hall := h.sweep_append []
  rwa [List.append_nil] at hall

theorem SweepFails.last (h : SweepFails f id cs u v) (hcs : cs ≠ []) : (u cs.length).device.code ≠ .success := by
  obtain ⟨k, hk⟩ := Nat.exists_eq_add_of_lt (List.length_pos_iff.mpr hcs)
  rw [Nat.zero_add] at hk
  rw [hk]
  exact (h k _ (List.getElem?_eq_getElem (by omega))).2.2

end

/-- CONFIGURE after a sweep that failed: the rate is set back (R211). -/
theorem configureCall_of_failed_sweep {f : Form} {id : Byte} {s t : State} (hs : Inv s) (hready : s.cfg.ready = true)
    (hsweep : sweep f id s.params.baudCandidates (reply .noResponse .none s) = some t)
    (hfail : t.device.code ≠ .success) (baud : Word32) (us : Nat) (opmode : Byte) :
    configureCall f id baud us opmode s = some { t with
      cfg := s.cfg, line := { t.line with baud := s.cfg.baud }, result := ⟨.success, []⟩ } := by
  have ht : InSession s t := ((InSession.refl hs).rateEffects (reply_effects _ _ s).rateEffects).rateEffects
    (sweep_effects hsweep)
  rw [configureCall_of_sweep hsweep, if_neg hfail, ht.setbaud_eq hready]

end Sys2Proof.Machine

open Sys2Proof Sys2Proof.Machine in
/-- Settles O59: CONFIGURE's sweep is the host's own row of SETBAUDs and PINGs, and none of them reads the answer
CONFIGURE starts with. -/
theorem configureRestoresTheRateAfterAFailedSweep : Obligations.ConfigureRestoresTheRateAfterAFailedSweep := by
  intro s f id opmode targetBaud delayUs hs hready
  refine ⟨fun u v hcs hstart hfails t ht => ?_, fun hcs => ?_, fun hsilent hreplies => ?_⟩
  · have hf : SweepFails f id s.params.baudCandidates u v := hfails
    have hsweep := (sweep_withDevice ⟨.noResponse, .none⟩ s f id hcs).trans (hstart ▸ hf.sweep_eq)
    rw [ht]
    exact congrArg orNeverEnds (configureCall_of_failed_sweep hs hready hsweep (hf.last hcs) _ _ _)
  · have hsweep : sweep f id s.params.baudCandidates (reply .noResponse .none s) =
        some (reply .noResponse .none s) := by
      rw [hcs]; rfl
    exact congrArg orNeverEnds (configureCall_of_failed_sweep hs hready hsweep nofun _ _ _)
  · obtain ⟨t, hsweep, hdevice, hsent⟩ := sweep_of_dead (t := reply .noResponse .none s)
      ((InSession.refl hs).rateEffects (reply_effects _ _ s).rateEffects) hready ⟨hsilent, hreplies⟩ rfl f id
      s.params.baudCandidates
    have hrun := configureCall_of_failed_sweep hs hready hsweep (by rw [hdevice]; nofun) targetBaud delayUs opmode
    exact ⟨_, congrArg orNeverEnds hrun, hdevice, rfl, rfl, hsent⟩
end

section
/-!
# The steps of CONFIGURE after its sweep (45_device_ops R211, R270)
-/

namespace Sys2Proof.Machine

open Config

/-! ## In order, up to the first failure -/

/-- The five steps as instructions of the host. -/
def configureInstrs (c : Params) (f : Form) (id : Byte) (target : Word32) (us : Nat) (opmode : Byte) : List Instr :=
  [.setTorqueEnable f id false 0 0, .setBaudRate f id (baudCodeOf c target) 0 0, .setbaud target,
    .setDelayTime f id us 0 0, .setOperatingMode f id opmode 0 0]

/-- The host's own steps, `x j` the state before step `j`, up to the first failure or to the end: `n` of them. -/
structure StepsRun (steps : List Instr) (x : Nat → State) (n : Nat) : Prop where
  exec : ∀ j i, j < n → steps[j]? = some i → exec i (x j) = .next (x (j + 1))
  ok : ∀ j, j < n → (x j).device.code = .success
  le : n ≤ 5
  last : n = 5 ∨ (x n).device.code ≠ .success

section

variable {s : State} {f : Form} {id opmode : Byte} {c target : Word32} {us n : Nat} {x : Nat → State}
  (h : StepsRun (configureInstrs s.params f id target us opmode) x n)
include h

/-- The third step is accepted and touches no answer. -/
theorem StepsRun.setbaud (hn : 2 < n) : setbaudCommand target (x 2) = x 3 :=
  Host.Outcome.next.inj (h.exec 2 (.setbaud target) hn rfl)

/-- A step after which the host goes on is not the last one. -/
theorem StepsRun.goes_on {j : Nat} (hj : j ≤ n) (h5 : j < 5) (hok : (x j).device.code = .success) : j < n :=
  lt_of_le_of_ne hj fun e => h.last.elim (by omega) fun hfail => hfail (e ▸ hok)

/-- CONFIGURE goes on from a step where the host does. -/
theorem StepsRun.thenStep_eq {j : Nat} (hj : j ≤ n) (h5 : j < 5) {k : State → Option State}
    (hk : j < n → k (x j) = some (x n)) : thenStep (some (x j)) k = some (x n) := by
  rcases thenStep_cases (x j) k with ⟨hok, e⟩ | ⟨hfail, e⟩
  · exact e.trans (hk (h.goes_on hj h5 hok))
  · rw [e, (Nat.lt_or_eq_of_le hj).resolve_left fun hlt => hfail (h.ok j hlt)]

/-- The rate is the candidate's up to the SETBAUD of the target, and the target's from there on. -/
theorem StepsRun.atRate (hready : s.cfg.ready = true) (h0 : AtRate s c (x 0)) {j : Nat} (hj : j ≤ n) :
    AtRate s (if j ≤ 2 then c else target) (x j) := by
  induction j with
  | zero => exact h0
  | succ j ih =>
    have hrate := ih (by omega)
    have hle := h.le
    obtain rfl | rfl | rfl | rfl | rfl : j = 0 ∨ j = 1 ∨ j = 2 ∨ j = 3 ∨ j = 4 := by omega
    case inr.inr.inl =>
      rw [← h.setbaud hj]
      exact hrate.setbaud hready target
    all_goals exact hrate.effects (exec_effects rfl (h.exec _ _ hj rfl))

/-- CONFIGURE's steps are the host's (R211). -/
theorem StepsRun.configureSteps_eq (hready : s.cfg.ready = true) (h0 : AtRate s c (x 0))
    (hok0 : (x 0).device.code = .success) : configureSteps f id target us opmode (x 0) = some (x n) := by
  have hn0 : 0 < n := h.goes_on (Nat.zero_le n) (by omega) hok0
  have htorque : setTorqueCall f id false 0 0 (x 0) = some (x 1) := orNeverEnds_next (h.exec 0 _ hn0 rfl)
  rw [configureSteps, htorque]
  refine h.thenStep_eq hn0 (by omega) fun hn1 => ?_
  have hcode : setBaudRateCall f id (baudCodeOf (x 1).params target) 0 0 (x 1) = some (x 2) := by
    rw [(h.atRate hready h0 hn0).params]
    exact orNeverEnds_next (h.exec 1 _ hn1 rfl)
  rw [hcode]
  refine h.thenStep_eq hn1 (by omega) fun hn2 => ?_
  have hok3 : (x 3).device.code = .success := by rw [← h.setbaud hn2, setbaudCommand_device, h.ok 2 hn2]
  have hn3 : 3 < n := h.goes_on hn2 (by omega) hok3
  have hdelay : setDelayCall f id us 0 0 (x 3) = some (x 4) := orNeverEnds_next (h.exec 3 _ hn3 rfl)
  rw [h.setbaud hn2, hdelay]
  refine h.thenStep_eq hn3 (by omega) fun hn4 => ?_
  rw [show n = 5 from le_antisymm h.le hn4]
  exact orNeverEnds_next (h.exec 4 _ hn4 rfl)

end

/-! ## All five answered -/

/-- The status frame that answers a write or a PING, at once. -/
def okReply (id st : Byte) : Reply := ⟨true, [⟨0, frameOf id st [0x00]⟩]⟩

/-- In the session of `s` the device has answered the exchanges with these frames, and it will answer `k` more. -/
structure Answering (s : State) (id st : Byte) (k : Nat) (frames : List (List Byte)) (t : State) : Prop
    extends InSession s t where
  silent : t.line.silent
  replies : t.line.replies = List.replicate k (okReply id st)
  sent : t.line.sent = s.line.sent ++ frames

theorem frameFits_of_length {txCap : Nat} {p : List Byte} (h : 14 ≤ txCap) (hp : p.length ≤ 3) :
    frameFits txCap p = true := by
  have := stuff_length_le p
  exact (frameFits_iff txCap p).mpr ⟨by omega, by omega⟩

section

variable {s t : State} {id st : Byte} {k : Nat} {frames : List (List Byte)}

/-- SETBAUD sends nothing. -/
theorem Answering.setbaud (h : Answering s id st k frames t) (hready : s.cfg.ready = true) (b : Word32) :
    Answering s id st k frames (setbaudCommand b t) := by
  have hline : (setbaudCommand b t).line = { t.line with baud := b } := by
    rw [h.toInSession.setbaud_eq hready]
  exact ⟨(h.toInSession.setbaud hready b).toInSession, hline ▸ h.silent, hline ▸ h.replies, hline ▸ h.sent⟩

/-- A call that fits sends one frame more, uses up one reply, and succeeds. -/
theorem Answering.call (h : Answering s id st (k + 1) frames t) (hready : s.cfg.ready = true)
    {p : List Byte} (hp : frameFits s.params.txCap p = true) (f : Form) (ins : Byte) :
    ∃ u, plainCall f id ins p 0 0 t = some u ∧ u.device = ⟨.success, .none⟩ ∧ Effects t u ∧
      Answering s id st k (frames ++ [frameOf id ins p]) u := by
  have htakes : t.takes p := ⟨h.ready hready, by rw [h.params]; exact hp⟩
  have hs : Inv (setAttempt 1 t) := h.inv.congr rfl rfl rfl
  have hroom : (frameOf id st [0x00]).length ≤ t.cfg.cap := h.inv.cap_ge
  obtain ⟨v, hv, houtcome, -, hline⟩ := exchange_of_answer hs htakes h.silent (h.replies.trans List.replicate_succ) rfl
    hroom id ins (wait := waitEff t.cfg.waitUs 0) (Nat.zero_le _)
  have hok : v.resp.outcome = .success := by simpa [statusOutcome] using houtcome
  obtain ⟨r, a, hissue, -, hcode⟩ := issueCall_of_success ((accepts_iff p t).mpr ⟨h.inv.idle, htakes⟩) hv hok f 0
  have hcall : plainCall f id ins p 0 0 t = some (finishPlain (v.withPolicyResult r a)) := by
    rw [plainCall, hissue]; rfl
  refine ⟨_, hcall, congrArg (DeviceReply.mk · .none) hcode, plainCall_effects hcall, ?_⟩
  have hsent : v.line.sent = s.line.sent ++ (frames ++ [frameOf id ins p]) := by
    rw [hline, ← List.append_assoc, ← h.sent]; rfl
  have hsilent : v.line.silent := hline ▸ h.silent
  exact ⟨h.toInSession.rateEffects (plainCall_effects hcall).rateEffects, hsilent, congrArg Transport.replies hline,
    hsent⟩

/-- A write of one byte fits a send buffer of 14 bytes. -/
theorem Answering.write (h : Answering s id st (k + 1) frames t) (hready : s.cfg.ready = true)
    (htx : 14 ≤ s.params.txCap) (f : Form) (addr : Word16) (b : Byte) :
    ∃ u, writeCall f id addr [b] 0 0 t = some u ∧ u.device = ⟨.success, .none⟩ ∧ Effects t u ∧
      Answering s id st k (frames ++ [frameOf id s.params.codes.write (writePayload addr [b])]) u := by
  rw [writeCall, h.params]
  exact h.call hready (frameFits_of_length htx le_rfl) f s.params.codes.write

theorem thenStep_of_success (ht : t.device = ⟨.success, .none⟩) (k : State → Option State) :
    thenStep (some t) k = k t := by
  rcases thenStep_cases t k with ⟨-, e⟩ | ⟨hfail, -⟩
  · exact e
  · exact absurd (congrArg DeviceReply.code ht) hfail

/-- The four writes, and the SETBAUD between them. -/
theorem Answering.configureSteps {us : Nat} {b : Byte} (h : Answering s id st 4 frames t)
    (hready : s.cfg.ready = true) (htx : 14 ≤ s.params.txCap) (hb : delayByte s.params us = some b) (f : Form)
    (target : Word32) (opmode : Byte) :
    ∃ u, configureSteps f id target us opmode t = some u ∧ u.device = ⟨.success, .none⟩ ∧ AtRate s target u ∧
      u.line.sent = s.line.sent ++ (frames ++ [
        frameOf id s.params.codes.write (writePayload s.params.regmap.torqueEnable.addr [0x00]),
        frameOf id s.params.codes.write (writePayload s.params.regmap.baudRate.addr [baudCodeOf s.params target]),
        frameOf id s.params.codes.write (writePayload s.params.regmap.delayTime.addr [b]),
        frameOf id s.params.codes.write (writePayload s.params.regmap.operatingMode.addr [opmode])]) := by
  obtain ⟨t1, e1, hok1, -, h1⟩ := h.write hready htx f s.params.regmap.torqueEnable.addr 0x00
  obtain ⟨t2, e2, hok2, -, h2⟩ := h1.write hready htx f s.params.regmap.baudRate.addr (baudCodeOf s.params target)
  have h3 := h2.setbaud hready target
  obtain ⟨t4, e4, hok4, he4, h4⟩ := h3.write hready htx f s.params.regmap.delayTime.addr b
  obtain ⟨t5, e5, hok5, he5, h5⟩ := h4.write hready htx f s.params.regmap.operatingMode.addr opmode
  refine ⟨t5, ?_, hok5, ((h2.toInSession.setbaud hready target).effects he4).effects he5, by simp [h5.sent]⟩
  have htorque : setTorqueCall f id false 0 0 t = some t1 := by rw [setTorqueCall, h.params]; exact e1
  have hcode : setBaudRateCall f id (baudCodeOf t1.params target) 0 0 t1 = some t2 := by
    rw [setBaudRateCall, h1.params, e2]
  have hdelay : setDelayCall f id us 0 0 (setbaudCommand target t2) = some t4 := by
    simp only [setDelayCall, h3.params, hb, e4]
  have hmode : setOpmodeCall f id opmode 0 0 t4 = some t5 := by rw [setOpmodeCall, h4.params, e5]
  rw [Machine.configureSteps, htorque, thenStep_of_success hok1, hcode, thenStep_of_success hok2, hdelay,
    thenStep_of_success hok4, hmode]

end

end Sys2Proof.Machine

open Sys2Proof Sys2Proof.Machine in
/-- Settles O60: CONFIGURE's sweep is the host's own, up to the candidate that answers, and its steps are the host's
own five; on an answering line each of them succeeds. -/
theorem configureRunsItsStepsInOrder : Obligations.ConfigureRunsItsStepsInOrder := by
  intro s f id opmode target c us hs hready
  refine ⟨fun before after u v x n steps hcs hstart hfails hset hping hok hsteps hexec hall hle hlast => ?order,
    fun st b cs htx hsilent hcs hb hreplies => ?answered⟩
  case order =>
    subst hsteps
    have hf : SweepFails f id before u v := hfails
    have hrun : StepsRun (configureInstrs s.params f id target us opmode) x n := ⟨hexec, hall, hle, hlast⟩
    have hsweep : sweep f id s.params.baudCandidates (reply .noResponse .none s) = some (x 0) := by
      refine (sweep_withDevice ⟨.noResponse, .none⟩ s f id (by rw [hcs]; simp)).trans ?_
      rw [hcs, ← hstart, hf.sweep_append, sweep_cons (pingCall_of_exec hset hping), if_pos hok]
    have hbefore : InSession s (u before.length) :=
      (InSession.refl hs).rateEffects (sweep_effects (hstart ▸ hf.sweep_eq))
    have h0 : AtRate s c (x 0) := (hbefore.setbaud hready c).effects (plainCall_effects (pingCall_of_exec hset hping))
    have hrate := hrun.atRate hready h0 le_rfl
    have hcall : configureCall f id target us opmode s = some (x n) := by
      rw [configureCall_of_sweep hsweep, if_pos hok, hrun.configureSteps_eq hready h0 hok]
    exact ⟨congrArg orNeverEnds hcall, hrate.cfg_eq, hrate.lineBaud⟩
  case answered =>
    have hstart : Answering s id st 5 [] (reply .noResponse .none s) :=
      ⟨(InSession.refl hs).rateEffects (reply_effects _ _ s).rateEffects, hsilent, hreplies,
        (List.append_nil _).symm⟩
    obtain ⟨w, hping, hok, -, hw⟩ := (hstart.setbaud hready c).call hready (p := [])
      (frameFits_of_length htx (by decide)) f s.params.codes.ping
    have hcode : w.device.code = .success := by rw [hok]
    have hsweep : sweep f id s.params.baudCandidates (reply .noResponse .none s) = some w := by
      rw [hcs, sweep_cons (by rw [pingCall, (hstart.setbaud hready c).params]; exact hping), if_pos hcode]
    obtain ⟨t, ht, hdevice, hrate, hsent⟩ := hw.configureSteps hready htx hb f target opmode
    have hcall : configureCall f id target us opmode s = some t := by
      rw [configureCall_of_sweep hsweep, if_pos hcode, ht]
    exact ⟨t, congrArg orNeverEnds hcall, hdevice, hrate.cfg_eq, hrate.lineBaud, hsent⟩
end

section
/-!
# What refuses a command, and what the pure commands write (60_exceptions R230, R231)
-/

namespace Sys2Proof.Machine

/-! ## The pure commands (R231) -/

/-- `t` is `s` but for the result it presents, which is a Success or a refusal. -/
structure Presents (s t : State) : Prop where
  eq : t = { s with result := t.result }
  code : t.result.code = .success ∨ t.result.code = .refused

theorem present_presents (data : List Byte) (s : State) : Presents s (present .success data s) := ⟨rfl, .inl rfl⟩

theorem refuse_presents (s : State) : Presents s (refuse s) := ⟨rfl, .inr rfl⟩

theorem presentOrRefuse_presents (data : Option (List Byte)) (s : State) : Presents s (presentOrRefuse data s) := by
  cases data with
  | none => exact refuse_presents s
  | some d => exact present_presents d s

/-- An Idle block runs the command, a busy one refuses it. -/
theorem ifIdle_presents {k : State → State} (hk : ∀ s, Presents s (k s)) (s : State) : Presents s (ifIdle k s) := by
  unfold ifIdle
  split
  · exact hk s
  · exact refuse_presents s

theorem exec_pure_presents {i : Instr} (hi : i.isPure = true) (s : State) :
    ∃ t, exec i s = .next t ∧ Presents s t := by
  cases i with
  | crc16 | le16 | le32 | stuff | destuff => exact ⟨_, rfl, ifIdle_presents (present_presents _) s⟩
  | u16 | u32 | s16 | s32 => exact ⟨_, rfl, ifIdle_presents (presentOrRefuse_presents _) s⟩
  | hdrfind buf | decode buf =>
    refine ⟨_, rfl, ifIdle_presents (fun u => ?_) s⟩
    split
    · exact present_presents _ u
    · exact refuse_presents u
  | _ => cases hi

theorem ifIdle_of_busy {s : State} (h : s.xstate ≠ .idle) (k : State → State) : ifIdle k s = refuse s := if_neg h

/-- ENCODE is refused with no other change, or presents the frame it has written. -/
theorem exec_encode_cases (id ins : Byte) (p : List Byte) (s : State) :
    exec (.encode id ins p) s = .next (refuse s) ∨
    exec (.encode id ins p) s = .next { s with
      tx := (encodeInto id ins p s).tx, result := ⟨.success, blob (frameOf id ins p)⟩ } := by
  by_cases hidle : s.xstate = .idle
  case neg => exact .inl (congrArg Host.Outcome.next (ifIdle_of_busy hidle _))
  case pos =>
    rw [exec_encode_of_idle hidle]
    cases hfits : frameFits s.params.txCap p with
    | false => exact .inl (congrArg Host.Outcome.next (encodeCommand_of_not_fits id ins hfits))
    | true => exact .inr (congrArg Host.Outcome.next (encodeCommand_of_fits id ins hfits))

theorem exec_decode_of_too_long {s : State} (h : s.xstate = .idle) {buf : List Byte} (hcap : s.cfg.cap < buf.length) :
    exec (.decode buf) s = .next (refuse s) :=
  congrArg Host.Outcome.next ((ifIdle_of_idle h _).trans (if_neg (Nat.not_le.mpr hcap)))

/-! ## Exchanges that are not accepted (R148 step 1, R179) -/

theorem accepts_eq_false_iff (p : List Byte) (s : State) : accepts p s = false ↔
    s.xstate ≠ .idle ∨ s.cfg.ready = false ∨ s.params.txCap < 10 + (stuff p).length ∨
      0xFFFF < (stuff p).length + 3 := by
  rw [Bool.eq_false_iff, Ne, accepts_iff, State.takes, frameFits_iff, not_and_or, not_and_or, not_and_or,
    Bool.not_eq_true, Nat.not_le, Nat.not_le]

section

variable {p : List Byte} {s : State} (h : accepts p s = false)
include h

theorem runXchg_of_not_accepted (id ins : Byte) (wait : Word40) : runXchg id ins p wait s = some (refuse s) := by
  rw [runXchg, h]; rfl

theorem runXchgr_of_not_accepted (id ins mult iters : Byte) : runXchgr id ins p mult iters s = some (refuse s) := by
  rw [runXchgr, h]; rfl

theorem issueCall_of_not_accepted (f : Form) (id ins m n : Byte) : issueCall f id ins p m n s = some (refuse s) := by
  cases f with
  | retried => exact runXchgr_of_not_accepted h id ins m n
  | single => exact runXchg_of_not_accepted h id ins _

end

/-- A call that expands to a command has policy operands, and that command carries a request. -/
theorem expand_eq_some {c : Config.Params} {waitUs : Word32} {i j : Instr} (h : expand c waitUs i = some j) :
    (∃ q, i.policy = some q) ∧ ∃ r, j.request = some r := by
  cases i with
  | ping | read | write | regwrite | action | freset | reboot | getTorqueEnable | setTorqueEnable | getPosition
  | getVelocity | getCurrent | getTemperature | getDelayTime | getDriveMode | getOperatingMode | setOperatingMode
  | getBaudRate | setBaudRate =>
    cases h
    exact ⟨⟨_, rfl⟩, _, issue_request ..⟩
  | setDelayTime =>
    obtain ⟨b, -, rfl⟩ := Option.map_eq_some_iff.mp h
    exact ⟨⟨_, rfl⟩, _, issue_request ..⟩
  | _ => cases h

/-- A call whose command is refused answers Refused (log 27). -/
theorem exec_call_of_not_accepted {i j : Instr} {id ins : Byte} {p : List Byte} {s : State}
    (h : accepts p s = false) (hj : expand s.params s.cfg.waitUs i = some j)
    (hreq : j.request = some (id, ins, p)) : exec i s = .next (reply .refused .none (refuse s)) := by
  obtain ⟨⟨⟨f, m, n⟩, hi⟩, -⟩ := expand_eq_some hj
  obtain ⟨fin, hfin, hexec⟩ := exec_of_expand hj hreq hi
  obtain ⟨d, hd, hplain, -⟩ := hfin.answer (u := refuse s) rfl
  rw [hexec, issueCall_of_not_accepted h, Option.map_some, hd, hplain (.inr nofun)]
  rfl

/-- A delay time that has no byte is not issued (93_implementation_defined U9; log 14). -/
theorem exec_setDelayTime_of_no_byte {us : Nat} {s : State} (h : delayByte s.params us = none) (f : Form)
    (id m n : Byte) : exec (.setDelayTime f id us m n) s = .next (reply .refused .none s) := by
  rw [exec, execSetDelayTime, setDelayCall, h]
  rfl

/-! ## A busy block (R230) -/

section

variable {s : State} (h : s.xstate ≠ .idle)
include h

theorem not_accepted_of_busy (p : List Byte) : accepts p s = false := (accepts_eq_false_iff p s).mpr (.inl h)

/-- Every command asks for `XSTATE = Idle` before anything else. -/
theorem exec_command_of_busy {i : Instr} (hi : i.isCommand = true) : exec i s = .next (refuse s) := by
  cases i with
  | crc16 | le16 | le32 | u16 | u32 | s16 | s32 | stuff | encode | hdrfind | destuff | decode | init =>
    exact congrArg Host.Outcome.next (ifIdle_of_busy h _)
  | xchg id ins p wait => exact congrArg orNeverEnds (runXchg_of_not_accepted (not_accepted_of_busy h p) id ins wait)
  | xchgr id ins p m n => exact congrArg orNeverEnds (runXchgr_of_not_accepted (not_accepted_of_busy h p) id ins m n)
  | setbaud baud => exact congrArg Host.Outcome.next (setbaudCommand_of_not_ready (.inl h) baud)
  | _ => cases hi

theorem exec_call_of_busy {i j : Instr} (hj : expand s.params s.cfg.waitUs i = some j) :
    exec i s = .next (reply .refused .none (refuse s)) := by
  obtain ⟨-, ⟨id, ins, p⟩, hreq⟩ := expand_eq_some hj
  exact exec_call_of_not_accepted (not_accepted_of_busy h p) hj hreq

/-- No candidate's PING is issued; the last refusal is the answer. -/
theorem sweep_of_busy (f : Form) (id : Byte) (cs : List Word32) :
    sweep f id cs s = some (if cs = [] then s else reply .refused .none (refuse s)) := by
  induction cs generalizing s with
  | nil => rfl
  | cons c cs ih =>
    have hping : pingCall f id 0 0 (setbaudCommand c s) = some (reply .refused .none (refuse s)) := by
      rw [setbaudCommand_of_not_ready (.inl h), pingCall, plainCall,
        issueCall_of_not_accepted (not_accepted_of_busy (s := refuse s) h _)]
      rfl
    rw [sweep_cons hping, if_neg nofun, ih (s := reply .refused .none (refuse s)) h, if_neg (List.cons_ne_nil c cs)]
    split <;> rfl

/-- CONFIGURE ends with its sweep, and the rate is not set back: that SETBAUD is refused too (log 21). -/
theorem exec_configure_of_busy (f : Form) (id : Byte) (baud : Word32) (us : Nat) (opmode : Byte) :
    exec (.configure f id baud us opmode) s =
      .next (reply (if s.params.baudCandidates = [] then .noResponse else .refused) .none (refuse s)) := by
  have hsweep := sweep_of_busy (s := reply .noResponse .none s) h f id s.params.baudCandidates
  rw [exec_configure, configureCall_of_sweep hsweep, if_neg ?failed, setbaudCommand_of_not_ready (.inl ?busy)]
  · split <;> rfl
  case busy => split <;> exact h
  case failed => split <;> nofun

end

/-- The instructions by what becomes of them on a busy block. -/
theorem instr_kinds (c : Config.Params) (waitUs : Word32) {i : Instr} (hi : i.isStatus = false) :
    (i.isCommand = true ∨ (wireParts c.codes i).isSome = true) ∨ (∃ j, expand c waitUs i = some j) ∨
    (∃ f id us m n, i = .setDelayTime f id us m n ∧ delayByte c us = none) ∨
    (∃ f id baud us opmode, i = .configure f id baud us opmode) := by
  cases i with
  | wStatus => cases hi
  | configure => exact .inr (.inr (.inr ⟨_, _, _, _, _, rfl⟩))
  | setDelayTime f id us m n =>
    cases hb : delayByte c us with
    | none => exact .inr (.inr (.inl ⟨f, id, us, m, n, rfl, hb⟩))
    | some b => exact .inr (.inl ⟨_, congrArg (Option.map _) hb⟩)
  | wPing | wRead | wWrite | wRegWrite | wAction | wFactoryReset | wReboot => exact .inl (.inr rfl)
  | ping | read | write | regwrite | action | freset | reboot | getTorqueEnable | setTorqueEnable | getPosition
  | getVelocity | getCurrent | getTemperature | getDelayTime | getDriveMode | getOperatingMode | setOperatingMode
  | getBaudRate | setBaudRate => exact .inr (.inl ⟨_, rfl⟩)
  | _ => exact .inl (.inl rfl)

end Sys2Proof.Machine

open Sys2Proof Sys2Proof.Machine in
/-- Settles O15: a pure command only presents, and ENCODE presents after it has written its frame. -/
theorem pureCommandsChangeOnlyTheResult : Obligations.PureCommandsChangeOnlyTheResult := by
  intro i s
  refine ⟨fun hi => ?pure, fun id ins p hi => ?encode, fun buf hi hidle => ?decode⟩
  case pure =>
    obtain ⟨t, ht, hpresents⟩ := exec_pure_presents hi s
    exact ⟨t, ht, hpresents.eq, hpresents.code⟩
  case encode =>
    subst hi
    rcases exec_encode_cases id ins p s with e | e
    · exact ⟨_, e, rfl, .inr rfl⟩
    · exact ⟨_, e, rfl, .inl rfl⟩
  case decode =>
    subst hi
    split
    · next hcap => exact exec_decode_of_idle hidle hcap
    · next hcap => exact exec_decode_of_too_long hidle (Nat.not_le.mp hcap)

open Sys2Proof Sys2Proof.Machine in
/-- Settles O34: the precondition fails exactly when the command is not accepted. -/
theorem unacceptedExchangesChangeNothing : Obligations.UnacceptedExchangesChangeNothing := by
  intro s id ins p h
  have hp : accepts p s = false := (accepts_eq_false_iff p s).mpr h
  exact ⟨fun wait => congrArg orNeverEnds (runXchg_of_not_accepted hp id ins wait),
    fun mult iters => congrArg orNeverEnds (runXchgr_of_not_accepted hp id ins mult iters),
    fun i j hj hreq => exec_call_of_not_accepted hp hj hreq⟩

open Sys2Proof Sys2Proof.Machine in
/-- Settles O33: commands and wire instructions test `XSTATE` themselves, calls and CONFIGURE issue commands that do. -/
theorem busyBlockRefusesEveryCommand : Obligations.BusyBlockRefusesEveryCommand := by
  intro i s hbusy hi
  have hcommand (hkind : i.isCommand = true ∨ (wireParts s.params.codes i).isSome = true) :
      exec i s = .next (refuse s) := by
    rcases hkind with hc | hw
    · exact exec_command_of_busy hbusy hc
    · obtain ⟨w, hw⟩ := Option.isSome_iff_exists.mp hw
      rw [exec_of_wireParts hw hi, ifIdle_of_busy hbusy]
  refine ⟨?frame, hcommand, fun j hj => exec_call_of_busy hbusy hj, ?delay, ?configure⟩
  case frame =>
    rcases instr_kinds s.params s.cfg.waitUs hi with hkind | ⟨j, hj⟩ | ⟨f, id, us, m, n, rfl, hb⟩ |
      ⟨f, id, baud, us, opmode, rfl⟩
    · exact ⟨_, hcommand hkind, rfl⟩
    · exact ⟨_, exec_call_of_busy hbusy hj, rfl⟩
    · exact ⟨_, exec_setDelayTime_of_no_byte hb f id m n, rfl⟩
    · exact ⟨_, exec_configure_of_busy hbusy f id baud us opmode, rfl⟩
  case delay =>
    rintro f id us m n rfl hb
    exact exec_setDelayTime_of_no_byte hb f id m n
  case configure =>
    rintro f id baud us opmode rfl
    exact exec_configure_of_busy hbusy f id baud us opmode
end

section
/-!
# Exchanges that get nothing, and a corrupt frame (60_exceptions R220, R223; 43_session_exchange R129, R148, R155)
-/

namespace Sys2Proof.Machine

/-! ## The channel -/

/-- A send that fails takes its reply off the plan, and leaves everything that is coming (R223). -/
theorem Transport.send_of_failure (frame : List Byte) {l : Transport} {r : Reply} {rs : List Reply}
    (h : l.replies = r :: rs) (hr : r.ok = false) : ∃ l', l.send frame = (false, l') ∧
      l'.coming = l.coming ∧ l'.balk = l.balk ∧ l'.replies = rs := by
  have htick : l.tick.replies = r :: rs := l.tick_listens.replies.trans h
  have hbalk : l.tick.balk = l.balk := by unfold Transport.tick; split <;> rfl
  refine ⟨{ l.tick with sent := l.tick.sent ++ [frame], replies := rs }, ?_, l.tick_coming, hbalk, rfl⟩
  simp [Transport.send, Transport.emit, htick, hr]

/-- A wait too short for the next piece shortens that piece's gap (log 22). -/
theorem Transport.Steady.readyWithin_of_late {l : Transport} (h : l.Steady) (ha : l.avail = []) {c : Chunk}
    {cs : List Chunk} (hf : l.future = c :: cs) {t : Word40} (hgap : t.toNat < c.gap) :
    l.readyWithin t = (false, { l with future := ⟨c.gap - t.toNat, c.bytes⟩ :: cs }) := by
  simp only [Transport.readyWithin, h.tick, ha, List.isEmpty_nil, if_true, Transport.await, hf,
    if_neg (Nat.not_le.mpr hgap)]

/-! ## Nothing received (R220, R223) -/

/-- An exchange that ended in NoResponse before its first pass: registers, flags and buffer are as its start cleared
them. -/
structure NothingReceived (t : State) : Prop where
  outcome : t.resp.outcome = .noResponse
  cleared : t.resp.cleared
  rxLen : t.rx.len = 0
  flags : t.flags = ⟨false, .seeking⟩
  idle : t.xstate = .idle

section

variable {s : State} (hs : Inv s) {p : List Byte} (hp : s.takes p) (id ins : Byte) (wait : Word40) {l : Transport}
include hs hp

theorem xchg_of_failed_send (hsend : s.line.send (frameOf id ins p) = (false, l)) :
    ∃ t, exec (.xchg id ins p wait) s = .next t ∧ NothingReceived t ∧ t.line = l := by
  obtain ⟨hsent, hline⟩ := sendFrame_beginExchange (s := setAttempt 1 s) (hs.congr rfl rfl rfl) wait hsend
  have hx := ((exchange_cases id ins p wait (setAttempt 1 s)).resolve_left fun ⟨hok, _⟩ => by
    rw [hsent] at hok; cases hok).2
  exact ⟨_, execXchg_of_exchange hs.idle hp hx, ⟨rfl, ⟨rfl, rfl, rfl, rfl, rfl, rfl, rfl⟩, rfl, rfl, rfl⟩, hline⟩

theorem xchg_of_vain_wait {l' : Transport} (hsend : s.line.send (frameOf id ins p) = (true, l))
    (hwait : l.readyWithin wait = (false, l')) :
    ∃ t, exec (.xchg id ins p wait) s = .next t ∧ NothingReceived t ∧ t.line = l' := by
  obtain ⟨hsent, hline⟩ := sendFrame_beginExchange (s := setAttempt 1 s) (hs.congr rfl rfl rfl) wait hsend
  rw [← hline] at hwait
  have hvain : (readyWithin (enterSent (sentState id ins p wait (setAttempt 1 s)))).1 = false := congrArg Prod.fst hwait
  have hreceive := ((exchange_cases id ins p wait (setAttempt 1 s)).resolve_right fun ⟨hfail, _⟩ => by
    rw [hsent] at hfail; cases hfail).2
  have hquiet := hreceive.trans ((receive_cases _).resolve_left fun ⟨hmore, _⟩ => by
    rw [hvain] at hmore; cases hmore).2
  exact ⟨_, execXchg_of_exchange hs.idle hp hquiet, ⟨rfl, ⟨rfl, rfl, rfl, rfl, rfl, rfl, rfl⟩, rfl, rfl, rfl⟩,
    congrArg Prod.snd hwait⟩

end

/-- On a silent channel the wait after a send is in vain, unless the planned reply begins in time. -/
theorem Transport.vain_wait_of_silent {l : Transport} (h : l.silent) {wait : Word40}
    (hplan : l.replies = [] ∨ (∃ rs, l.replies = ⟨true, []⟩ :: rs) ∨
      ∃ g bytes cs rs, l.replies = ⟨true, ⟨g, bytes⟩ :: cs⟩ :: rs ∧ wait.toNat < g) (frame : List Byte) :
    ∃ l₁ l₂, l.send frame = (true, l₁) ∧ l₁.readyWithin wait = (false, l₂) ∧
      ∀ g bytes cs rs, l.replies = ⟨true, ⟨g, bytes⟩ :: cs⟩ :: rs → l₂.future = ⟨g - wait.toNat, bytes⟩ :: cs := by
  have hplanned {chunks rs} (hr : l.replies = ⟨true, chunks⟩ :: rs) := Transport.send_of_planned h hr frame
  obtain ⟨havail, hfuture, hlag, hbalk, hbabble⟩ := h
  rcases hplan with hr | ⟨rs, hr⟩ | ⟨g, bytes, cs, rs, hr, hgap⟩
  · refine ⟨_, _, Transport.Steady.send ⟨hlag, hbalk⟩ hr frame,
      Transport.Steady.readyWithin_of_nothing (l := { l with sent := l.sent ++ [frame] }) ⟨hlag, hbalk⟩ hbabble havail
        hfuture wait, fun _ _ _ _ hr' => ?_⟩
    cases hr.symm.trans hr'
  · refine ⟨_, _, hplanned hr,
      Transport.Steady.readyWithin_of_nothing (l := { l.exchanged frame rs with future := [] }) ⟨hlag, hbalk⟩ hbabble
        havail rfl wait, fun _ _ _ _ hr' => ?_⟩
    cases hr.symm.trans hr'
  · refine ⟨_, _, hplanned hr,
      Transport.Steady.readyWithin_of_late (l := { l.exchanged frame rs with future := ⟨g, bytes⟩ :: cs })
        ⟨hlag, hbalk⟩ havail rfl hgap, fun _ _ _ _ hr' => ?_⟩
    cases hr.symm.trans hr'
    rfl

end Sys2Proof.Machine

namespace Sys2Proof

/-! ## A changed byte (R135) -/

variable {fr : List Byte} (hfr : FrameShaped fr)
include hfr

/-- Header and length field are bytes 0 to 3, 5 and 6. -/
theorem FrameShaped.set {q : Nat} (h4 : 4 ≤ q) (h5 : q ≠ 5) (h6 : q ≠ 6) (v : Byte) : FrameShaped (fr.set q v) :=
  ⟨by rw [List.take_set_of_le h4]; exact hfr.header,
    by rw [frameLenAt_set h5 h6, hfr.length, List.length_set]⟩

/-- The fields DECODE latches of a frame with a wrong checksum, at the frame's own offsets (R129). -/
theorem FrameShaped.mismatch_fields {f : Fields} (hd : decodeFrameBytes fr = .checksumMismatch f) :
    f = ⟨0, fr.getD 4 0, fr.getD 7 0, destuff ((fr.drop 8).take (fr.length - 10)), crc16 (fr.take (fr.length - 2)),
      joinU16 (fr.getD (fr.length - 2) 0) (fr.getD (fr.length - 1) 0)⟩ := by
  rw [decodeFrameBytes_of_header hfr.header] at hd
  rcases decodeAt_cases fr 0 with e | e | ⟨hw, e | e⟩ <;> cases e.symm.trans hd
  have hlong := hw.long
  rw [hfr.length] at hlong
  obtain ⟨n, hn⟩ := Nat.exists_eq_add_of_le' hlong
  rw [fieldsAt_eq (L := n + 3) (by rw [hfr.length, hn]; omega), hn]
  simp [Nat.add_comm]

end Sys2Proof

open Sys2Proof Sys2Proof.Machine in
/-- Settles O43: the first wait is in vain, and ends the exchange. -/
theorem silenceIsNoResponse : Obligations.SilenceIsNoResponse := by
  intro s id ins p wait hs hp hsilent hplan
  obtain ⟨l₁, l₂, hsend, hwait, hfuture⟩ := Transport.vain_wait_of_silent hsilent hplan (frameOf id ins p)
  obtain ⟨t, ht, hnothing, hline⟩ := xchg_of_vain_wait hs hp id ins wait hsend hwait
  exact ⟨t, ht, hnothing.outcome, hnothing.cleared, hnothing.rxLen, hnothing.flags, hnothing.idle, hline ▸ hfuture⟩

open Sys2Proof Sys2Proof.Machine in
/-- Settles O44: a send takes nothing off the channel, and after one that fails nothing else is asked of it. -/
theorem failedSendIsNoResponse : Obligations.FailedSendIsNoResponse := by
  intro s id ins p wait r rs hs hp hreplies hfail
  obtain ⟨l, hsend, hcoming, hbalk, hrest⟩ := Transport.send_of_failure (frameOf id ins p) hreplies hfail
  obtain ⟨t, ht, hnothing, rfl⟩ := xchg_of_failed_send hs hp id ins wait hsend
  exact ⟨t, ht, hnothing.outcome, hnothing.cleared, hnothing.idle, hnothing.flags, hnothing.rxLen, hcoming, hbalk,
    hrest⟩

open Sys2Proof Sys2Proof.Machine in
/-- Settles O47: the flipped bit leaves header and length field, so the frame is read to its end, and DECODE finds
its checksum wrong. -/
theorem corruptFrameIsWrongChecksum : Obligations.CorruptFrameIsWrongChecksum := by
  intro s id ins rid st b p q pre post fr content wait g k hs hp hsilent hgap hfits hk hframe h4 h5 h6 hroom hfr
    hcontent hreplies
  have hset : fr = (frameOf rid st q).set pre.length (b ^^^ (1#8 <<< k)) := by simp [hfr, hframe]
  have hshape : FrameShaped fr := hset ▸ (frameOf_shaped rid st hfits).set h4 h5 h6 _
  obtain ⟨f, -, hcrc, hdecode⟩ := flippedBitsGiveChecksumMismatch rid st q pre post b k hfits hk hframe h4 h5 h6
  rw [← hfr] at hdecode
  obtain ⟨t, v, kept, ht, hresp, -, -, -, hkept, hbytes⟩ := xchg_of_frame (pre := []) hs hp hsilent hshape hreplies
    (by simp) hshape.hdrfind_eq (by rwa [hset, List.length_set]) id ins (by simpa using hgap)
  obtain rfl : kept = [] := List.suffix_nil.mp hkept
  rw [hdecode] at hresp
  have hfields := hshape.mismatch_fields hdecode
  refine ⟨t, ht, ?_, by rw [hresp]; exact hcrc, hbytes⟩
  rw [hresp, hcontent, hfields]
  rfl
end

section
/-!
# Two exchanges side by side (70_reset_and_hazards R251, 43_session_exchange R148)

Steps 2 to 4 overwrite every register an exchange reads later, but for those R251 names. From there on two blocks that
started alike go on alike, operation by operation: of the buffers they read only the bytes below the fill counts.
-/

namespace Sys2Proof.Machine

/-- The two states agree on everything an exchange reads or writes. The buffers agree below their fill counts;
the bytes beyond, the host's side, `ITER_LIMIT` and the other configuration registers are free. -/
structure Alike (s s' : State) : Prop where
  params : s.params = s'.params
  req : s.req = s'.req
  resp : s.resp = s'.resp
  attempt : s.policy.attempt = s'.policy.attempt
  xstate : s.xstate = s'.xstate
  flags : s.flags = s'.flags
  cap : s.cfg.cap = s'.cfg.cap
  line : s.line = s'.line
  txLen : s.tx.len = s'.tx.len
  txBytes : s.txBytes = s'.txBytes
  rxWf : Memory.wf s.rx.mem
  rxWf' : Memory.wf s'.rx.mem
  rxBytes : s.rxBytes = s'.rxBytes

theorem compact_wf (k : Nat) {s : State} (hm : Memory.wf s.rx.mem) : Memory.wf (compact k s).rx.mem := by
  unfold compact
  split
  · exact hm
  · exact Memory.writeBytes_wf (Memory.zeroTo_wf hm _) _ _

/-- Two answers of a call that go with states alike. -/
inductive AnswerAlike {α : Type} : α × State → α × State → Prop
  | intro (a : α) {s s' : State} (h : Alike s s') : AnswerAlike (a, s) (a, s')

section

variable {s s' : State} (h : Alike s s')
include h

theorem Alike.rxLen : s.rx.len = s'.rx.len := by
  rw [← State.rxBytes_length, h.rxBytes, State.rxBytes_length]

/-! ## The channel -/

theorem Alike.relined (l : Transport) : Alike { s with line := l } { s' with line := l } := { h with line := rfl }

theorem Alike.readyNow : AnswerAlike (readyNow s) (readyNow s') := by
  rw [Machine.readyNow, Machine.readyNow, h.line]
  exact .intro _ (h.relined _)

theorem Alike.readOne : AnswerAlike (readOne s) (readOne s') := by
  rw [Machine.readOne, Machine.readOne, h.line]
  exact .intro _ (h.relined _)

theorem Alike.readyWithin : AnswerAlike (readyWithin s) (readyWithin s') := by
  rw [Machine.readyWithin, Machine.readyWithin, h.line, show s.req.wait = s'.req.wait by rw [h.req]]
  exact .intro _ (h.relined _)

theorem Alike.sendFrame : AnswerAlike (sendFrame s) (sendFrame s') := by
  rw [Machine.sendFrame, Machine.sendFrame, h.line, h.txBytes]
  exact .intro _ (h.relined _)

/-! ## The receive buffer (R142, R144, R145) -/

theorem Alike.appendRx (b : Byte) : Alike (appendRx b s) (appendRx b s') :=
  { h with
    rxWf := Memory.write_wf h.rxWf _ _
    rxWf' := Memory.write_wf h.rxWf' _ _
    rxBytes := by rw [appendRx_rxBytes h.rxWf, appendRx_rxBytes h.rxWf', h.rxBytes] }

theorem Alike.overflowTest : AnswerAlike (overflowTest s) (overflowTest s') := by
  rw [Machine.overflowTest, Machine.overflowTest, h.rxLen, h.cap]
  split
  · exact h.readyNow
  · exact .intro false h

theorem Alike.compact {k : Nat} (hk : k ≤ s.rx.len) : Alike (compact k s) (compact k s') := by
  have hbytes : (Machine.compact k s).rxBytes = (Machine.compact k s').rxBytes := by
    rw [compact_rxBytes_of_wf h.rxWf hk, compact_rxBytes_of_wf h.rxWf' (h.rxLen ▸ hk), h.rxBytes]
  have hwf := compact_wf k h.rxWf
  have hwf' := compact_wf k h.rxWf'
  rw [compact_eq k s, compact_eq k s'] at hbytes ⊢
  exact { h with rxWf := hwf, rxWf' := hwf', rxBytes := hbytes }

/-! ## The registers (R148 step 7d, R152, R232) -/

theorem Alike.raiseOutcome (o : Code) : Alike (raiseOutcome o s) (raiseOutcome o s') :=
  { h with resp := by rw [raiseOutcome_resp, raiseOutcome_resp, h.resp], xstate := rfl }

theorem Alike.latch (f : Fields) : Alike (latch f s) (latch f s') :=
  { h with resp := by rw [latch_resp, latch_resp, h.resp] }

theorem Alike.noteSeeking : Alike (noteSeeking s) (noteSeeking s') :=
  { h with flags := by rw [noteSeeking_flags, noteSeeking_flags, h.flags] }

theorem Alike.notePartial : Alike (notePartial s) (notePartial s') := { h with flags := rfl }

theorem Alike.enterDraining : Alike (enterDraining s) (enterDraining s') := { h with xstate := rfl }

theorem Alike.enterSent : Alike (enterSent s) (enterSent s') := { h with xstate := rfl }

theorem Alike.endQuiet : Alike (endQuiet s) (endQuiet s') := by
  rw [Machine.endQuiet, Machine.endQuiet, h.flags]
  exact h.raiseOutcome _

theorem Alike.actOn {r : DecodeResult} (hk : r.keep ≤ s.rx.len) : Alike (actOn r s) (actOn r s') := by
  cases r with
  | headerNotFound k => exact (h.compact hk).noteSeeking
  | incomplete k => exact (h.compact hk).notePartial
  | malformed k =>
    rw [Machine.actOn, Machine.actOn, h.params]
    exact h.raiseOutcome _
  | checksumMismatch f => exact (h.latch f).raiseOutcome _
  | success f =>
    rw [Machine.actOn, Machine.actOn, h.params, h.req]
    exact (h.latch f).raiseOutcome _

end

/-! ## The loops (R142, R148 step 7) -/

theorem Alike.refillUpTo (k : Nat) {s s' : State} (h : Alike s s') :
    Alike (refillUpTo k s) (refillUpTo k s') := by
  induction k generalizing s s' with
  | zero => exact h
  | succ k ih =>
    have hready := h.readyNow
    rw [Machine.refillUpTo, Machine.refillUpTo, h.rxLen, h.cap]
    generalize Machine.readyNow s = x, Machine.readyNow s' = x' at hready ⊢
    obtain @⟨ready, u, u', hu⟩ := hready
    split
    · exact h
    · split
      · have hread := hu.readOne
        generalize Machine.readOne u = y, Machine.readOne u' = y' at hread ⊢
        obtain ⟨_ | b, ht⟩ := hread
        · exact ht
        · exact ih (ht.appendRx b)
      · exact hu

theorem Alike.drainPass {s s' : State} (h : Alike s s') : Alike (drainPass s) (drainPass s') := by
  have hrefill : Alike (refill (Machine.enterDraining s)) (refill (Machine.enterDraining s')) := by
    rw [refill, refill, show (Machine.enterDraining s).cfg.cap = (Machine.enterDraining s').cfg.cap from h.cap]
    exact h.enterDraining.refillUpTo _
  have htest := hrefill.overflowTest
  rw [Machine.drainPass, Machine.drainPass]
  generalize Machine.overflowTest (refill (Machine.enterDraining s)) = x,
    Machine.overflowTest (refill (Machine.enterDraining s')) = x' at htest ⊢
  obtain ⟨_ | _, ht⟩ := htest
  next t t' =>
    have hkeep := keep_le_length t.rxBytes
    rw [State.rxBytes_length] at hkeep
    simp only [← ht.rxBytes]
    exact ht.actOn (hkeep.trans (Nat.sub_le _ _))
  next => exact ht.raiseOutcome _

theorem Alike.moreAfterPass {s s' : State} (h : Alike s s') :
    AnswerAlike (moreAfterPass s) (moreAfterPass s') := by
  have hready := h.readyNow
  rw [Machine.moreAfterPass, Machine.moreAfterPass]
  generalize Machine.readyNow s = x, Machine.readyNow s' = x' at hready ⊢
  obtain ⟨_ | _, ht⟩ := hready
  · exact ht.readyWithin
  · exact .intro true ht

theorem Alike.drain (n : Nat) {s s' : State} (h : Alike s s') : Option.Rel Alike (drain n s) (drain n s') := by
  induction n generalizing s s' with
  | zero => exact .none
  | succ n ih =>
    have hmore := h.drainPass.moreAfterPass
    rw [Machine.drain, Machine.drain, h.drainPass.xstate]
    generalize Machine.moreAfterPass (Machine.drainPass s) = x,
      Machine.moreAfterPass (Machine.drainPass s') = x' at hmore ⊢
    obtain ⟨_ | _, ht⟩ := hmore <;> split
    · exact .some h.drainPass
    · exact .some ht.endQuiet
    · exact .some h.drainPass
    · exact ih ht

/-! ## The exchange (R148) -/

theorem Alike.receive {s s' : State} (h : Alike s s') : Option.Rel Alike (receive s) (receive s') := by
  have hwait := h.readyWithin
  rw [Machine.receive, Machine.receive]
  generalize Machine.readyWithin s = x, Machine.readyWithin s' = x' at hwait ⊢
  obtain ⟨_ | _, ht⟩ := hwait
  · exact .some ht.endQuiet
  next t t' =>
    have hbound : passBound t = passBound t' := by rw [passBound, passBound, ht.line, ht.cap]
    simp only [hbound]
    exact ht.drain _

/-- What two blocks must agree on for their exchanges to go alike (R251), on buffers in canonical form. -/
structure SameStart (s s' : State) : Prop where
  params : s.params = s'.params
  cap : s.cfg.cap = s'.cfg.cap
  line : s.line = s'.line
  attempt : s.policy.attempt = s'.policy.attempt
  rxWf : Memory.wf s.rx.mem
  rxWf' : Memory.wf s'.rx.mem
  txWf : Memory.wf s.tx.mem
  txWf' : Memory.wf s'.tx.mem

section

variable {s s' : State} (h : SameStart s s') (id ins : Byte) (p : List Byte) (wait : Word40)
include h

/-- Steps 2 to 4 clear, latch and encode alike; `XSTATE` is overwritten by step 5. -/
theorem SameStart.beginExchange (hidle : s.xstate = s'.xstate) :
    Alike (beginExchange id ins p wait s) (beginExchange id ins p wait s') :=
  { h with
    req := rfl
    resp := rfl
    xstate := hidle
    flags := rfl
    txLen := rfl
    txBytes := by rw [beginExchange_txBytes _ _ _ _ h.txWf, beginExchange_txBytes _ _ _ _ h.txWf']
    rxWf := Memory.zeroTo_wf h.rxWf _
    rxWf' := Memory.zeroTo_wf h.rxWf' _
    rxBytes := rfl }

theorem SameStart.exchange (hidle : s.xstate = s'.xstate) :
    Option.Rel Alike (exchange id ins p wait s) (exchange id ins p wait s') := by
  have hsend := (h.beginExchange id ins p wait hidle).sendFrame
  rw [Machine.exchange, Machine.exchange]
  generalize Machine.sendFrame (Machine.beginExchange id ins p wait s) = x,
    Machine.sendFrame (Machine.beginExchange id ins p wait s') = x' at hsend ⊢
  obtain ⟨_ | _, ht⟩ := hsend
  · exact .some (ht.raiseOutcome _)
  · exact ht.enterSent.receive

end

theorem Alike.presentOutcome_result {t t' : State} (h : Alike t t') :
    (presentOutcome t).result = (presentOutcome t').result := by
  simp only [presentOutcome, present_result, respData, h.resp, h.attempt]

end Sys2Proof.Machine

open Sys2Proof Sys2Proof.Machine in
/-- Settles O39: once both exchanges have begun, the two blocks are alike, and stay so to the end. -/
theorem exchangeForgetsTheEarlierOne : Obligations.ExchangeForgetsTheEarlierOne := by
  intro s s' id ins p wait hrx htx hrx' htx' hidle hidle' hp hready' hparams hcap hline
  have haccepts : accepts p s = true := (accepts_iff p s).mpr ⟨hidle, hp⟩
  have haccepts' : accepts p s' = true := (accepts_iff p s').mpr ⟨hidle', hready', hparams ▸ hp.2⟩
  have hstart : SameStart (setAttempt 1 s) (setAttempt 1 s') := ⟨hparams, hcap, hline, rfl, hrx, hrx', htx, htx'⟩
  have hrun := hstart.exchange id ins p wait (hidle.trans hidle'.symm)
  rw [exec_xchg, exec_xchg, runXchg, runXchg, if_pos haccepts, if_pos haccepts']
  generalize exchange id ins p wait (setAttempt 1 s) = o, exchange id ins p wait (setAttempt 1 s') = o' at hrun ⊢
  cases hrun with
  | none => exact rfl
  | some h =>
    exact ⟨h.resp, h.req, h.flags, h.xstate, h.line, h.presentOutcome_result, h.attempt, h.rxLen, h.rxBytes, h.txLen,
      h.txBytes⟩
end

section
/-!
# A line that babbles without a header (43_session_exchange R157, 70_reset_and_hazards R263)

Each pass finds no header and keeps three bytes at most, so the buffer never fills, and each wait brings another byte.
-/

namespace Sys2Proof

/-- A header needs the byte `FD`. -/
theorem hdrfind_of_no_fd {buf : List Byte} (h : 0xFD ∉ buf) : hdrfind buf = none :=
  hdrfind_eq_none fun k hk =>
    have hfd : 0xFD ∈ (buf.drop k).take 4 := by rw [hk]; decide
    h (List.mem_of_mem_drop (List.mem_of_mem_take hfd))

end Sys2Proof

namespace Sys2Proof.Machine

/-- Only the endlessly repeated bytes are left of the plan, at most one of them pending, and none of them is `FD`. -/
structure Transport.Babbles (l : Transport) : Prop where
  steady : l.Steady
  future : l.future = []
  few : l.avail.length ≤ 1
  babble : l.babble ≠ []
  availFree : 0xFD ∉ l.avail
  babbleFree : 0xFD ∉ l.babble

/-- A wait on such a line brings the next byte. -/
theorem Transport.Babbles.readyWithin {l : Transport} (h : l.Babbles) (t : Word40) :
    (l.readyWithin t).1 = true ∧ (l.readyWithin t).2.Babbles := by
  by_cases ha : l.avail = []
  · obtain ⟨b, bs, hb⟩ := List.exists_cons_of_ne_nil h.babble
    have hfree := h.babbleFree
    rw [hb, List.mem_cons, not_or] at hfree
    have hwait : l.readyWithin t = (true, { l with avail := [b], babble := bs ++ [b] }) := by
      simp only [Transport.readyWithin, h.steady.tick, ha, List.isEmpty_nil, if_true, Transport.await, h.future, hb]
    rw [hwait]
    exact ⟨rfl, ⟨h.steady.lag, h.steady.balk⟩, h.future, le_rfl, by simp, by simpa using hfree.1,
      by simpa [and_comm] using hfree⟩
  · rw [h.steady.readyWithin t ha]
    exact ⟨rfl, h⟩

/-- The exchange runs on such a line, and the buffer holds three bytes at most, none of them `FD`. -/
structure Stuck (s : State) : Prop where
  midway : Midway s
  line : s.line.Babbles
  few : s.rx.len ≤ 3
  rxFree : 0xFD ∉ s.rxBytes

section

variable {s : State} (h : Stuck s)
include h

theorem Stuck.readyWithin : (readyWithin s).1 = true ∧ Stuck (readyWithin s).2 := by
  obtain ⟨hready, hline⟩ := h.line.readyWithin s.req.wait
  exact ⟨hready, h.midway.congr rfl, hline, h.few, h.rxFree⟩

/-- The line as a pass leaves it: refilled from, and still babbling. -/
theorem Stuck.passInput_line : (passInput s).line.Babbles := by
  obtain ⟨n, e⟩ := passInput_of_steady h.line.steady h.midway.rxLen
  have hline : (passInput s).line = { s.line with avail := s.line.avail.drop n } := by rw [e]; rfl
  rw [hline]
  exact ⟨⟨h.line.steady.lag, h.line.steady.balk⟩, h.line.future,
    (List.drop_sublist n s.line.avail).length_le.trans h.line.few, h.line.babble,
    fun hm => h.line.availFree (List.mem_of_mem_drop hm), h.line.babbleFree⟩

/-- A pass takes one byte at most, so the buffer is not full. -/
theorem Stuck.passInput_rx : (passInput s).rx.len ≤ 4 ∧ 0xFD ∉ (passInput s).rxBytes := by
  obtain ⟨new, -, hmoved⟩ := passInput_moved h.midway.rxWf
  have hnew : s.line.avail = new ++ (passInput s).line.coming :=
    (Transport.coming_of_no_future h.line.future).symm.trans hmoved.coming
  have hfew : new.length ≤ 1 := by
    have hone := h.line.few
    rw [hnew, List.length_append] at hone
    omega
  have hfree := h.line.availFree
  rw [hnew, List.mem_append, not_or] at hfree
  refine ⟨?_, by rw [hmoved.bytes, List.mem_append, not_or]; exact ⟨h.rxFree, hfree.1⟩⟩
  rw [← State.rxBytes_length, hmoved.bytes, List.length_append, State.rxBytes_length]
  exact Nat.add_le_add h.few hfew

/-- A pass finds no header, drops all but three bytes, and goes on (R148 step 7d). -/
theorem Stuck.pass : (drainPass s).xstate ≠ .idle ∧ Stuck (drainPass s) := by
  obtain ⟨hlen, hfree⟩ := h.passInput_rx
  have hcap := h.midway.cap_ge
  have hdecode := decodeFrameBytes_of_none (hdrfind_of_no_fd hfree)
  have hopen : (decodeFrameBytes (passInput s).rxBytes).isOpen = true := by rw [hdecode]; rfl
  have hpass : drainPass s = actOn (decodeFrameBytes (passInput s).rxBytes) (passInput s) := by
    rw [drainPass_of_steady h.line.steady h.midway.rxLen, if_neg (by omega)]
  have hbytes := actOn_rxBytes_of_open h.midway.passInput.rxWf hopen
  rw [← hpass, hdecode, DecodeResult.keep] at hbytes
  refine ⟨?_, h.midway.drainPass, drainPass_line s ▸ h.passInput_line, ?_, ?_⟩
  · rw [hpass, actOn_xstate, if_pos hopen, passInput_xstate]
    nofun
  · rw [← State.rxBytes_length, hbytes, List.length_drop]
    omega
  · rw [hbytes]
    exact fun hm => hfree (List.mem_of_mem_drop hm)

theorem Stuck.moreAfterPass : (moreAfterPass s).1 = true ∧ Stuck (moreAfterPass s).2 := by
  rw [moreAfterPass_of_steady h.line.steady]
  split
  · exact h.readyWithin
  · exact ⟨rfl, h⟩

end

/-- No number of passes ends the exchange. -/
theorem Stuck.drain_eq_none (n : Nat) {s : State} (h : Stuck s) : drain n s = none := by
  induction n generalizing s with
  | zero => rfl
  | succ n ih =>
    obtain ⟨hrun, hpass⟩ := h.pass
    obtain ⟨hmore, hnext⟩ := hpass.moreAfterPass
    rw [drain, if_neg hrun]
    generalize Machine.moreAfterPass (drainPass s) = x at hmore hnext ⊢
    obtain ⟨_ | _, t⟩ := x
    · cases hmore
    · exact ih hnext

theorem Stuck.receive_eq_none {s : State} (h : Stuck s) : receive s = none := by
  obtain ⟨hready, hnext⟩ := h.readyWithin
  rcases receive_cases s with ⟨-, e⟩ | ⟨hvain, -⟩
  · exact e.trans (hnext.drain_eq_none _)
  · cases hready.symm.trans hvain

/-- An exchange on such a line is stuck from its send on. -/
theorem stuck_of_babble {s : State} (hs : Inv s) {p : List Byte} (hp : s.takes p) (hline : s.line.Babbles)
    (hreplies : s.line.replies = []) (id ins : Byte) (wait : Word40) : exchange id ins p wait s = none := by
  obtain ⟨hsent, hsentLine⟩ := sendFrame_beginExchange hs wait (hline.steady.send hreplies (frameOf id ins p))
  have hstuck : Stuck (enterSent (sentState id ins p wait s)) :=
    { midway := (hs.sentState id ins wait hp).congr rfl
      line := by rw [enterSent_line, hsentLine]; exact { hline with steady := ⟨hline.steady.lag, hline.steady.balk⟩ }
      few := Nat.zero_le 3
      rxFree := List.not_mem_nil }
  rw [exchange, hsent]
  exact hstuck.receive_eq_none

end Sys2Proof.Machine

open Sys2Proof Sys2Proof.Machine in
/-- Settles O51: every pass keeps the block stuck, so no bound on the passes is large enough. -/
theorem headerFreeBabbleNeverEnds : Obligations.HeaderFreeBabbleNeverEnds := by
  intro s id ins p wait hs hp havail hfuture hlag hbalk hreplies hbabble hfree
  have hline : s.line.Babbles := ⟨⟨hlag, hbalk⟩, hfuture, by simp [havail], hbabble, by simp [havail],
    fun hm => hfree _ hm rfl⟩
  rw [exec_xchg, runXchg, if_pos ((accepts_iff p s).mpr ⟨hs.idle, hp⟩),
    stuck_of_babble (s := setAttempt 1 s) (hs.congr rfl rfl rfl) hp hline hreplies]
  rfl
end

section

open Sys2Proof Sys2Proof.Machine in
/-- Settles O1: every row of the table is a field of the reset state. The response registers are cleared because the
invariant holds there, and no byte of the receive buffer is free because nothing has been vacated. -/
theorem resetStateIsTheResetTable : Obligations.ResetStateIsTheResetTable := by
  have hcleared : State.reset.resp.cleared := resetMeetsTheInvariant.cleared rfl
  have hrx : ∀ i, State.reset.rxByte i = 0 := fun i => if_neg fun h => Nat.not_lt_zero i h.2
  exact ⟨rfl, rfl, hcleared, rfl, rfl, rfl, rfl, rfl, rfl, rfl, rfl, rfl, hrx, rfl, rfl⟩
end
